-- ==== Sys2Proof/Word.lean ====
section
/-! DEFINITION. The widths of the machine (R8): byte, word, doubleword, MSR and x87 register, and the three
integer operand sizes. -/
namespace Sys2Proof

/-- An 8-bit value, the unit of memory (R57). -/
abbrev Byte := BitVec 8
/-- A 16-bit value: selectors, ports, FLAGS. -/
abbrev Half := BitVec 16
/-- A 32-bit value: general registers, EIP, linear and physical addresses (R8). -/
abbrev Word := BitVec 32
/-- A 64-bit value: model-specific registers (R46). -/
abbrev Qword := BitVec 64
/-- An 80-bit x87 register (R52). -/
abbrev Ext := BitVec 80

/-- The integer operand sizes: 8, 16 and 32 bits (R262). -/
inductive Size
  | b | w | d
  deriving DecidableEq, Repr

/-- Width in bits of an operand size. -/
@[reducible] def Size.bits : Size → Nat
  | .b => 8
  | .w => 16
  | .d => 32

/-- Width in bytes of an operand size. -/
@[reducible] def Size.bytes : Size → Nat
  | .b => 1
  | .w => 2
  | .d => 4

end Sys2Proof
end

