-- ==== Sys2Proof/Syntax.lean ====
section
/-! DEFINITION. The instructions: one constructor for each row of spec/opcode_table.json, over the operand
shapes of 30_encoding.md. The operand size and the address size of an instruction are part of it (`Pfx`), as the
prefixes and the default of the code segment gave them (R262). -/
namespace Sys2Proof

/-- A general register by its encoding number (R20, R263), named by its 32-bit register. As an 8-bit operand
the numbers 4 to 7 are AH, CH, DH, BH (R21). -/
inductive Reg
  | eax | ecx | edx | ebx | esp | ebp | esi | edi
  deriving DecidableEq, Repr

/-- A segment register by its encoding number (R28). -/
inductive Seg
  | es | cs | ss | ds | fs | gs
  deriving DecidableEq, Repr

/-- The sixteen conditions of R274, in the order of their codes. -/
inductive Cond
  | o | no | b | ae | e | ne | be | a | s | ns | p | np | l | ge | le | g
  deriving DecidableEq, Repr

/-- An operand-size or address-size attribute (R262). -/
inductive OSz
  | o16 | o32
  deriving DecidableEq, Repr

/-- The `v` operand size of an attribute. -/
def OSz.size : OSz → Size
  | .o16 => .w
  | .o32 => .d

/-- What the prefixes and the code segment settle for an instruction (R261, R262): LOCK, the segment override,
the operand size and the address size. -/
structure Pfx where
  /-- LOCK (F0h) is present. -/
  lock : Bool
  /-- The last segment override, if any. -/
  seg : Option Seg
  /-- Operand size. -/
  osz : OSz
  /-- Address size. -/
  asz : OSz
  deriving DecidableEq, Repr

/-- The register sums of 16-bit addressing (R267); `abs` is the form with a displacement alone. -/
inductive Base16
  | bxsi | bxdi | bpsi | bpdi | si | di | bp | bx | abs
  deriving DecidableEq, Repr

/-- A memory operand (R265 to R267): a 16-bit sum, or base plus scaled index plus displacement. -/
inductive MemOp
  | m16 (base : Base16) (disp : Half)
  | m32 (base : Option Reg) (index : Option (Reg × BitVec 2)) (disp : Word)
  deriving DecidableEq, Repr

/-- An r/m operand (R264). -/
inductive RM
  | reg (r : Reg)
  | mem (m : MemOp)
  deriving DecidableEq, Repr

/-- The instructions. Each constructor names its row of the opcode table and its rule. -/
inductive Instr
  /-- `FABS`, D9 E1 (R569). -/
  | fabs (p : Pfx)
  /-- `FCHS`, D9 E0 (R570). -/
  | fchs (p : Pfx)
  /-- `FCOMPP`, DE D9 (R561). -/
  | fcompp (p : Pfx)
  /-- `FDECSTP`, D9 F6 (R574). -/
  | fdecstp (p : Pfx)
  /-- `FNOP`, D9 D0 (R575). -/
  | fnop (p : Pfx)
  /-- `FRNDINT`, D9 FC (R571). -/
  | frndint (p : Pfx)
  /-- `FSCALE`, D9 FD (R572). -/
  | fscale (p : Pfx)
  /-- `FTST`, D9 E4 (R567). -/
  | ftst (p : Pfx)
  /-- `FUCOMPP`, DA E9 (R566). -/
  | fucompp (p : Pfx)
  /-- `FXAM`, D9 E5 (R568). -/
  | fxam (p : Pfx)
  /-- `FXTRACT`, D9 F4 (R573). -/
  | fxtract (p : Pfx)
  /-- `FADD_ST_ST_i`, D8 C0 (R547). -/
  | faddStSti (p : Pfx) (i : BitVec 3)
  /-- `FADD_ST_i__ST`, DC C0 (R547). -/
  | faddStiSt (p : Pfx) (i : BitVec 3)
  /-- `FADDP_ST_i__ST`, DE C0 (R548). -/
  | faddpStiSt (p : Pfx) (i : BitVec 3)
  /-- `FCOM_ST_i`, D8 D0 (R559). -/
  | fcomSti (p : Pfx) (i : BitVec 3)
  /-- `FCOMP_ST_i`, D8 D8 (R560). -/
  | fcompSti (p : Pfx) (i : BitVec 3)
  /-- `FLD_ST_i`, D9 C0 (R540). -/
  | fldSti (p : Pfx) (i : BitVec 3)
  /-- `FMUL_ST_ST_i`, D8 C8 (R556). -/
  | fmulStSti (p : Pfx) (i : BitVec 3)
  /-- `FMUL_ST_i__ST`, DC C8 (R556). -/
  | fmulStiSt (p : Pfx) (i : BitVec 3)
  /-- `FMULP_ST_i__ST`, DE C8 (R557). -/
  | fmulpStiSt (p : Pfx) (i : BitVec 3)
  /-- `FST_ST_i`, DD D0 (R541). -/
  | fstSti (p : Pfx) (i : BitVec 3)
  /-- `FSTP_ST_i`, DD D8 (R542). -/
  | fstpSti (p : Pfx) (i : BitVec 3)
  /-- `FSUB_ST_ST_i`, D8 E0 (R550). -/
  | fsubStSti (p : Pfx) (i : BitVec 3)
  /-- `FSUB_ST_i__ST`, DC E8 (R550). -/
  | fsubStiSt (p : Pfx) (i : BitVec 3)
  /-- `FSUBP_ST_i__ST`, DE E8 (R551). -/
  | fsubpStiSt (p : Pfx) (i : BitVec 3)
  /-- `FSUBR_ST_ST_i`, D8 E8 (R553). -/
  | fsubrStSti (p : Pfx) (i : BitVec 3)
  /-- `FSUBR_ST_i__ST`, DC E0 (R553). -/
  | fsubrStiSt (p : Pfx) (i : BitVec 3)
  /-- `FSUBRP_ST_i__ST`, DE E0 (R554). -/
  | fsubrpStiSt (p : Pfx) (i : BitVec 3)
  /-- `FUCOM_ST_i`, DD E0 (R564). -/
  | fucomSti (p : Pfx) (i : BitVec 3)
  /-- `FUCOMP_ST_i`, DD E8 (R565). -/
  | fucompSti (p : Pfx) (i : BitVec 3)
  /-- `FXCH_ST_i`, D9 C8 (R546). -/
  | fxchSti (p : Pfx) (i : BitVec 3)
  /-- `ADD_Eb_Ib`, 80 /0 (R362). -/
  | addEbIb (p : Pfx) (rm : RM) (imm : Byte)
  /-- `ADD_Ev_Iv`, 81 /0 (R362). -/
  | addEvIv (p : Pfx) (rm : RM) (imm : Word)
  /-- `ADD_Ev_Ibs`, 83 /0 (R362). -/
  | addEvIbs (p : Pfx) (rm : RM) (imm : Byte)
  /-- `OR_Eb_Ib`, 80 /1 (R363). -/
  | orEbIb (p : Pfx) (rm : RM) (imm : Byte)
  /-- `OR_Ev_Iv`, 81 /1 (R363). -/
  | orEvIv (p : Pfx) (rm : RM) (imm : Word)
  /-- `OR_Ev_Ibs`, 83 /1 (R363). -/
  | orEvIbs (p : Pfx) (rm : RM) (imm : Byte)
  /-- `ADC_Eb_Ib`, 80 /2 (R364). -/
  | adcEbIb (p : Pfx) (rm : RM) (imm : Byte)
  /-- `ADC_Ev_Iv`, 81 /2 (R364). -/
  | adcEvIv (p : Pfx) (rm : RM) (imm : Word)
  /-- `ADC_Ev_Ibs`, 83 /2 (R364). -/
  | adcEvIbs (p : Pfx) (rm : RM) (imm : Byte)
  /-- `SBB_Eb_Ib`, 80 /3 (R365). -/
  | sbbEbIb (p : Pfx) (rm : RM) (imm : Byte)
  /-- `SBB_Ev_Iv`, 81 /3 (R365). -/
  | sbbEvIv (p : Pfx) (rm : RM) (imm : Word)
  /-- `SBB_Ev_Ibs`, 83 /3 (R365). -/
  | sbbEvIbs (p : Pfx) (rm : RM) (imm : Byte)
  /-- `AND_Eb_Ib`, 80 /4 (R366). -/
  | andEbIb (p : Pfx) (rm : RM) (imm : Byte)
  /-- `AND_Ev_Iv`, 81 /4 (R366). -/
  | andEvIv (p : Pfx) (rm : RM) (imm : Word)
  /-- `AND_Ev_Ibs`, 83 /4 (R366). -/
  | andEvIbs (p : Pfx) (rm : RM) (imm : Byte)
  /-- `SUB_Eb_Ib`, 80 /5 (R367). -/
  | subEbIb (p : Pfx) (rm : RM) (imm : Byte)
  /-- `SUB_Ev_Iv`, 81 /5 (R367). -/
  | subEvIv (p : Pfx) (rm : RM) (imm : Word)
  /-- `SUB_Ev_Ibs`, 83 /5 (R367). -/
  | subEvIbs (p : Pfx) (rm : RM) (imm : Byte)
  /-- `XOR_Eb_Ib`, 80 /6 (R368). -/
  | xorEbIb (p : Pfx) (rm : RM) (imm : Byte)
  /-- `XOR_Ev_Iv`, 81 /6 (R368). -/
  | xorEvIv (p : Pfx) (rm : RM) (imm : Word)
  /-- `XOR_Ev_Ibs`, 83 /6 (R368). -/
  | xorEvIbs (p : Pfx) (rm : RM) (imm : Byte)
  /-- `CMP_Eb_Ib`, 80 /7 (R369). -/
  | cmpEbIb (p : Pfx) (rm : RM) (imm : Byte)
  /-- `CMP_Ev_Iv`, 81 /7 (R369). -/
  | cmpEvIv (p : Pfx) (rm : RM) (imm : Word)
  /-- `CMP_Ev_Ibs`, 83 /7 (R369). -/
  | cmpEvIbs (p : Pfx) (rm : RM) (imm : Byte)
  /-- `POP_Ev`, 8F /0 (R442). -/
  | popEv (p : Pfx) (rm : RM)
  /-- `ROL_Eb_Ib`, C0 /0 (R382). -/
  | rolEbIb (p : Pfx) (rm : RM) (imm : Byte)
  /-- `ROL_Ev_Ib`, C1 /0 (R382). -/
  | rolEvIb (p : Pfx) (rm : RM) (imm : Byte)
  /-- `ROL_Eb_1`, D0 /0 (R382). -/
  | rolEb1 (p : Pfx) (rm : RM)
  /-- `ROL_Ev_1`, D1 /0 (R382). -/
  | rolEv1 (p : Pfx) (rm : RM)
  /-- `ROL_Eb_CL`, D2 /0 (R382). -/
  | rolEbCl (p : Pfx) (rm : RM)
  /-- `ROL_Ev_CL`, D3 /0 (R382). -/
  | rolEvCl (p : Pfx) (rm : RM)
  /-- `ROR_Eb_Ib`, C0 /1 (R383). -/
  | rorEbIb (p : Pfx) (rm : RM) (imm : Byte)
  /-- `ROR_Ev_Ib`, C1 /1 (R383). -/
  | rorEvIb (p : Pfx) (rm : RM) (imm : Byte)
  /-- `ROR_Eb_1`, D0 /1 (R383). -/
  | rorEb1 (p : Pfx) (rm : RM)
  /-- `ROR_Ev_1`, D1 /1 (R383). -/
  | rorEv1 (p : Pfx) (rm : RM)
  /-- `ROR_Eb_CL`, D2 /1 (R383). -/
  | rorEbCl (p : Pfx) (rm : RM)
  /-- `ROR_Ev_CL`, D3 /1 (R383). -/
  | rorEvCl (p : Pfx) (rm : RM)
  /-- `SHL_Eb_Ib`, C0 /4 (R384). -/
  | shlEbIb (p : Pfx) (rm : RM) (imm : Byte)
  /-- `SHL_Ev_Ib`, C1 /4 (R384). -/
  | shlEvIb (p : Pfx) (rm : RM) (imm : Byte)
  /-- `SHL_Eb_1`, D0 /4 (R384). -/
  | shlEb1 (p : Pfx) (rm : RM)
  /-- `SHL_Ev_1`, D1 /4 (R384). -/
  | shlEv1 (p : Pfx) (rm : RM)
  /-- `SHL_Eb_CL`, D2 /4 (R384). -/
  | shlEbCl (p : Pfx) (rm : RM)
  /-- `SHL_Ev_CL`, D3 /4 (R384). -/
  | shlEvCl (p : Pfx) (rm : RM)
  /-- `SHR_Eb_Ib`, C0 /5 (R385). -/
  | shrEbIb (p : Pfx) (rm : RM) (imm : Byte)
  /-- `SHR_Ev_Ib`, C1 /5 (R385). -/
  | shrEvIb (p : Pfx) (rm : RM) (imm : Byte)
  /-- `SHR_Eb_1`, D0 /5 (R385). -/
  | shrEb1 (p : Pfx) (rm : RM)
  /-- `SHR_Ev_1`, D1 /5 (R385). -/
  | shrEv1 (p : Pfx) (rm : RM)
  /-- `SHR_Eb_CL`, D2 /5 (R385). -/
  | shrEbCl (p : Pfx) (rm : RM)
  /-- `SHR_Ev_CL`, D3 /5 (R385). -/
  | shrEvCl (p : Pfx) (rm : RM)
  /-- `SAR_Eb_Ib`, C0 /7 (R386). -/
  | sarEbIb (p : Pfx) (rm : RM) (imm : Byte)
  /-- `SAR_Ev_Ib`, C1 /7 (R386). -/
  | sarEvIb (p : Pfx) (rm : RM) (imm : Byte)
  /-- `SAR_Eb_1`, D0 /7 (R386). -/
  | sarEb1 (p : Pfx) (rm : RM)
  /-- `SAR_Ev_1`, D1 /7 (R386). -/
  | sarEv1 (p : Pfx) (rm : RM)
  /-- `SAR_Eb_CL`, D2 /7 (R386). -/
  | sarEbCl (p : Pfx) (rm : RM)
  /-- `SAR_Ev_CL`, D3 /7 (R386). -/
  | sarEvCl (p : Pfx) (rm : RM)
  /-- `MOV_Eb_Ib`, C6 /0 (R422). -/
  | movEbIb (p : Pfx) (rm : RM) (imm : Byte)
  /-- `MOV_Ev_Iv`, C7 /0 (R422). -/
  | movEvIv (p : Pfx) (rm : RM) (imm : Word)
  /-- `TEST_Eb_Ib`, F6 /0 (R370). -/
  | testEbIb (p : Pfx) (rm : RM) (imm : Byte)
  /-- `NOT_Eb`, F6 /2 (R374). -/
  | notEb (p : Pfx) (rm : RM)
  /-- `NEG_Eb`, F6 /3 (R373). -/
  | negEb (p : Pfx) (rm : RM)
  /-- `MUL_Eb`, F6 /4 (R375). -/
  | mulEb (p : Pfx) (rm : RM)
  /-- `IMUL_Eb`, F6 /5 (R376). -/
  | imulEb (p : Pfx) (rm : RM)
  /-- `DIV_Eb`, F6 /6 (R378). -/
  | divEb (p : Pfx) (rm : RM)
  /-- `IDIV_Eb`, F6 /7 (R379). -/
  | idivEb (p : Pfx) (rm : RM)
  /-- `TEST_Ev_Iv`, F7 /0 (R370). -/
  | testEvIv (p : Pfx) (rm : RM) (imm : Word)
  /-- `NOT_Ev`, F7 /2 (R374). -/
  | notEv (p : Pfx) (rm : RM)
  /-- `NEG_Ev`, F7 /3 (R373). -/
  | negEv (p : Pfx) (rm : RM)
  /-- `MUL_Ev`, F7 /4 (R375). -/
  | mulEv (p : Pfx) (rm : RM)
  /-- `IMUL_Ev`, F7 /5 (R376). -/
  | imulEv (p : Pfx) (rm : RM)
  /-- `DIV_Ev`, F7 /6 (R378). -/
  | divEv (p : Pfx) (rm : RM)
  /-- `IDIV_Ev`, F7 /7 (R379). -/
  | idivEv (p : Pfx) (rm : RM)
  /-- `INC_Eb`, FE /0 (R371). -/
  | incEb (p : Pfx) (rm : RM)
  /-- `DEC_Eb`, FE /1 (R372). -/
  | decEb (p : Pfx) (rm : RM)
  /-- `INC_Ev`, FF /0 (R371). -/
  | incEv (p : Pfx) (rm : RM)
  /-- `DEC_Ev`, FF /1 (R372). -/
  | decEv (p : Pfx) (rm : RM)
  /-- `CALL_Ev`, FF /2 (R457). -/
  | callEv (p : Pfx) (rm : RM)
  /-- `JMP_Ev`, FF /4 (R452). -/
  | jmpEv (p : Pfx) (rm : RM)
  /-- `JMP_Mp`, FF /5 (R459). -/
  | jmpMp (p : Pfx) (m : MemOp)
  /-- `PUSH_Ev`, FF /6 (R441). -/
  | pushEv (p : Pfx) (rm : RM)
  /-- `LLDT_Ew`, 0F 00 /2 (R503). -/
  | lldtEw (p : Pfx) (rm : RM)
  /-- `LTR_Ew`, 0F 00 /3 (R502). -/
  | ltrEw (p : Pfx) (rm : RM)
  /-- `LGDT_Ms`, 0F 01 /2 (R500). -/
  | lgdtMs (p : Pfx) (m : MemOp)
  /-- `LIDT_Ms`, 0F 01 /3 (R501). -/
  | lidtMs (p : Pfx) (m : MemOp)
  /-- `INVLPG_M`, 0F 01 /7 (R484). -/
  | invlpgM (p : Pfx) (m : MemOp)
  /-- `MOV_r32_CR0`, 0F 20 /0 (R491). -/
  | movRCr0 (p : Pfx) (r : Reg)
  /-- `MOV_r32_CR2`, 0F 20 /2 (R492). -/
  | movRCr2 (p : Pfx) (r : Reg)
  /-- `MOV_r32_CR3`, 0F 20 /3 (R494). -/
  | movRCr3 (p : Pfx) (r : Reg)
  /-- `MOV_r32_CR4`, 0F 20 /4 (R305). -/
  | movRCr4 (p : Pfx) (r : Reg)
  /-- `MOV_CR0_r32`, 0F 22 /0 (R490). -/
  | movCr0R (p : Pfx) (r : Reg)
  /-- `MOV_CR2_r32`, 0F 22 /2 (R492). -/
  | movCr2R (p : Pfx) (r : Reg)
  /-- `MOV_CR3_r32`, 0F 22 /3 (R493). -/
  | movCr3R (p : Pfx) (r : Reg)
  /-- `MOV_CR4_r32`, 0F 22 /4 (R304). -/
  | movCr4R (p : Pfx) (r : Reg)
  /-- `BT_Ev_Ib`, 0F BA /4 (R390). -/
  | btEvIb (p : Pfx) (rm : RM) (imm : Byte)
  /-- `BTS_Ev_Ib`, 0F BA /5 (R391). -/
  | btsEvIb (p : Pfx) (rm : RM) (imm : Byte)
  /-- `BTR_Ev_Ib`, 0F BA /6 (R392). -/
  | btrEvIb (p : Pfx) (rm : RM) (imm : Byte)
  /-- `BTC_Ev_Ib`, 0F BA /7 (R393). -/
  | btcEvIb (p : Pfx) (rm : RM) (imm : Byte)
  /-- `CMPXCHG8B_Mq`, 0F C7 /1 (R303). -/
  | cmpxchg8bMq (p : Pfx) (m : MemOp)
  /-- `FADD_m32real`, D8 /0 (R547). -/
  | faddM32 (p : Pfx) (m : MemOp)
  /-- `FADD_m64real`, DC /0 (R547). -/
  | faddM64 (p : Pfx) (m : MemOp)
  /-- `FCOM_m32real`, D8 /2 (R559). -/
  | fcomM32 (p : Pfx) (m : MemOp)
  /-- `FCOM_m64real`, DC /2 (R559). -/
  | fcomM64 (p : Pfx) (m : MemOp)
  /-- `FCOMP_m32real`, D8 /3 (R560). -/
  | fcompM32 (p : Pfx) (m : MemOp)
  /-- `FCOMP_m64real`, DC /3 (R560). -/
  | fcompM64 (p : Pfx) (m : MemOp)
  /-- `FIADD_m16int`, DE /0 (R549). -/
  | fiaddM16 (p : Pfx) (m : MemOp)
  /-- `FIADD_m32int`, DA /0 (R549). -/
  | fiaddM32 (p : Pfx) (m : MemOp)
  /-- `FICOM_m16int`, DE /2 (R562). -/
  | ficomM16 (p : Pfx) (m : MemOp)
  /-- `FICOM_m32int`, DA /2 (R562). -/
  | ficomM32 (p : Pfx) (m : MemOp)
  /-- `FICOMP_m16int`, DE /3 (R563). -/
  | ficompM16 (p : Pfx) (m : MemOp)
  /-- `FICOMP_m32int`, DA /3 (R563). -/
  | ficompM32 (p : Pfx) (m : MemOp)
  /-- `FILD_m16int`, DF /0 (R543). -/
  | fildM16 (p : Pfx) (m : MemOp)
  /-- `FILD_m32int`, DB /0 (R543). -/
  | fildM32 (p : Pfx) (m : MemOp)
  /-- `FILD_m64int`, DF /5 (R543). -/
  | fildM64 (p : Pfx) (m : MemOp)
  /-- `FIMUL_m16int`, DE /1 (R558). -/
  | fimulM16 (p : Pfx) (m : MemOp)
  /-- `FIMUL_m32int`, DA /1 (R558). -/
  | fimulM32 (p : Pfx) (m : MemOp)
  /-- `FIST_m16int`, DF /2 (R544). -/
  | fistM16 (p : Pfx) (m : MemOp)
  /-- `FIST_m32int`, DB /2 (R544). -/
  | fistM32 (p : Pfx) (m : MemOp)
  /-- `FISTP_m16int`, DF /3 (R545). -/
  | fistpM16 (p : Pfx) (m : MemOp)
  /-- `FISTP_m32int`, DB /3 (R545). -/
  | fistpM32 (p : Pfx) (m : MemOp)
  /-- `FISTP_m64int`, DF /7 (R545). -/
  | fistpM64 (p : Pfx) (m : MemOp)
  /-- `FISUB_m16int`, DE /4 (R552). -/
  | fisubM16 (p : Pfx) (m : MemOp)
  /-- `FISUB_m32int`, DA /4 (R552). -/
  | fisubM32 (p : Pfx) (m : MemOp)
  /-- `FISUBR_m16int`, DE /5 (R555). -/
  | fisubrM16 (p : Pfx) (m : MemOp)
  /-- `FISUBR_m32int`, DA /5 (R555). -/
  | fisubrM32 (p : Pfx) (m : MemOp)
  /-- `FLD_m32real`, D9 /0 (R540). -/
  | fldM32 (p : Pfx) (m : MemOp)
  /-- `FLD_m64real`, DD /0 (R540). -/
  | fldM64 (p : Pfx) (m : MemOp)
  /-- `FLD_m80real`, DB /5 (R540). -/
  | fldM80 (p : Pfx) (m : MemOp)
  /-- `FMUL_m32real`, D8 /1 (R556). -/
  | fmulM32 (p : Pfx) (m : MemOp)
  /-- `FMUL_m64real`, DC /1 (R556). -/
  | fmulM64 (p : Pfx) (m : MemOp)
  /-- `FST_m32real`, D9 /2 (R541). -/
  | fstM32 (p : Pfx) (m : MemOp)
  /-- `FST_m64real`, DD /2 (R541). -/
  | fstM64 (p : Pfx) (m : MemOp)
  /-- `FSTP_m32real`, D9 /3 (R542). -/
  | fstpM32 (p : Pfx) (m : MemOp)
  /-- `FSTP_m64real`, DD /3 (R542). -/
  | fstpM64 (p : Pfx) (m : MemOp)
  /-- `FSTP_m80real`, DB /7 (R542). -/
  | fstpM80 (p : Pfx) (m : MemOp)
  /-- `FSUB_m32real`, D8 /4 (R550). -/
  | fsubM32 (p : Pfx) (m : MemOp)
  /-- `FSUB_m64real`, DC /4 (R550). -/
  | fsubM64 (p : Pfx) (m : MemOp)
  /-- `FSUBR_m32real`, D8 /5 (R553). -/
  | fsubrM32 (p : Pfx) (m : MemOp)
  /-- `FSUBR_m64real`, DC /5 (R553). -/
  | fsubrM64 (p : Pfx) (m : MemOp)
  /-- `ADD_Eb_Gb`, 00 (R362). -/
  | addEbGb (p : Pfx) (rm : RM) (g : Reg)
  /-- `ADD_Ev_Gv`, 01 (R362). -/
  | addEvGv (p : Pfx) (rm : RM) (g : Reg)
  /-- `ADD_Gb_Eb`, 02 (R362). -/
  | addGbEb (p : Pfx) (g : Reg) (rm : RM)
  /-- `ADD_Gv_Ev`, 03 (R362). -/
  | addGvEv (p : Pfx) (g : Reg) (rm : RM)
  /-- `ADD_AL_Ib`, 04 (R362). -/
  | addAlIb (p : Pfx) (imm : Byte)
  /-- `ADD_eAX_Iv`, 05 (R362). -/
  | addEaxIv (p : Pfx) (imm : Word)
  /-- `OR_Eb_Gb`, 08 (R363). -/
  | orEbGb (p : Pfx) (rm : RM) (g : Reg)
  /-- `OR_Ev_Gv`, 09 (R363). -/
  | orEvGv (p : Pfx) (rm : RM) (g : Reg)
  /-- `OR_Gb_Eb`, 0A (R363). -/
  | orGbEb (p : Pfx) (g : Reg) (rm : RM)
  /-- `OR_Gv_Ev`, 0B (R363). -/
  | orGvEv (p : Pfx) (g : Reg) (rm : RM)
  /-- `OR_AL_Ib`, 0C (R363). -/
  | orAlIb (p : Pfx) (imm : Byte)
  /-- `OR_eAX_Iv`, 0D (R363). -/
  | orEaxIv (p : Pfx) (imm : Word)
  /-- `ADC_Eb_Gb`, 10 (R364). -/
  | adcEbGb (p : Pfx) (rm : RM) (g : Reg)
  /-- `ADC_Ev_Gv`, 11 (R364). -/
  | adcEvGv (p : Pfx) (rm : RM) (g : Reg)
  /-- `ADC_Gb_Eb`, 12 (R364). -/
  | adcGbEb (p : Pfx) (g : Reg) (rm : RM)
  /-- `ADC_Gv_Ev`, 13 (R364). -/
  | adcGvEv (p : Pfx) (g : Reg) (rm : RM)
  /-- `ADC_AL_Ib`, 14 (R364). -/
  | adcAlIb (p : Pfx) (imm : Byte)
  /-- `ADC_eAX_Iv`, 15 (R364). -/
  | adcEaxIv (p : Pfx) (imm : Word)
  /-- `SBB_Eb_Gb`, 18 (R365). -/
  | sbbEbGb (p : Pfx) (rm : RM) (g : Reg)
  /-- `SBB_Ev_Gv`, 19 (R365). -/
  | sbbEvGv (p : Pfx) (rm : RM) (g : Reg)
  /-- `SBB_Gb_Eb`, 1A (R365). -/
  | sbbGbEb (p : Pfx) (g : Reg) (rm : RM)
  /-- `SBB_Gv_Ev`, 1B (R365). -/
  | sbbGvEv (p : Pfx) (g : Reg) (rm : RM)
  /-- `SBB_AL_Ib`, 1C (R365). -/
  | sbbAlIb (p : Pfx) (imm : Byte)
  /-- `SBB_eAX_Iv`, 1D (R365). -/
  | sbbEaxIv (p : Pfx) (imm : Word)
  /-- `AND_Eb_Gb`, 20 (R366). -/
  | andEbGb (p : Pfx) (rm : RM) (g : Reg)
  /-- `AND_Ev_Gv`, 21 (R366). -/
  | andEvGv (p : Pfx) (rm : RM) (g : Reg)
  /-- `AND_Gb_Eb`, 22 (R366). -/
  | andGbEb (p : Pfx) (g : Reg) (rm : RM)
  /-- `AND_Gv_Ev`, 23 (R366). -/
  | andGvEv (p : Pfx) (g : Reg) (rm : RM)
  /-- `AND_AL_Ib`, 24 (R366). -/
  | andAlIb (p : Pfx) (imm : Byte)
  /-- `AND_eAX_Iv`, 25 (R366). -/
  | andEaxIv (p : Pfx) (imm : Word)
  /-- `SUB_Eb_Gb`, 28 (R367). -/
  | subEbGb (p : Pfx) (rm : RM) (g : Reg)
  /-- `SUB_Ev_Gv`, 29 (R367). -/
  | subEvGv (p : Pfx) (rm : RM) (g : Reg)
  /-- `SUB_Gb_Eb`, 2A (R367). -/
  | subGbEb (p : Pfx) (g : Reg) (rm : RM)
  /-- `SUB_Gv_Ev`, 2B (R367). -/
  | subGvEv (p : Pfx) (g : Reg) (rm : RM)
  /-- `SUB_AL_Ib`, 2C (R367). -/
  | subAlIb (p : Pfx) (imm : Byte)
  /-- `SUB_eAX_Iv`, 2D (R367). -/
  | subEaxIv (p : Pfx) (imm : Word)
  /-- `XOR_Eb_Gb`, 30 (R368). -/
  | xorEbGb (p : Pfx) (rm : RM) (g : Reg)
  /-- `XOR_Ev_Gv`, 31 (R368). -/
  | xorEvGv (p : Pfx) (rm : RM) (g : Reg)
  /-- `XOR_Gb_Eb`, 32 (R368). -/
  | xorGbEb (p : Pfx) (g : Reg) (rm : RM)
  /-- `XOR_Gv_Ev`, 33 (R368). -/
  | xorGvEv (p : Pfx) (g : Reg) (rm : RM)
  /-- `XOR_AL_Ib`, 34 (R368). -/
  | xorAlIb (p : Pfx) (imm : Byte)
  /-- `XOR_eAX_Iv`, 35 (R368). -/
  | xorEaxIv (p : Pfx) (imm : Word)
  /-- `CMP_Eb_Gb`, 38 (R369). -/
  | cmpEbGb (p : Pfx) (rm : RM) (g : Reg)
  /-- `CMP_Ev_Gv`, 39 (R369). -/
  | cmpEvGv (p : Pfx) (rm : RM) (g : Reg)
  /-- `CMP_Gb_Eb`, 3A (R369). -/
  | cmpGbEb (p : Pfx) (g : Reg) (rm : RM)
  /-- `CMP_Gv_Ev`, 3B (R369). -/
  | cmpGvEv (p : Pfx) (g : Reg) (rm : RM)
  /-- `CMP_AL_Ib`, 3C (R369). -/
  | cmpAlIb (p : Pfx) (imm : Byte)
  /-- `CMP_eAX_Iv`, 3D (R369). -/
  | cmpEaxIv (p : Pfx) (imm : Word)
  /-- `POP_SS`, 17 (R443). -/
  | popSs (p : Pfx)
  /-- `PUSH_Iv`, 68 (R441). -/
  | pushIv (p : Pfx) (imm : Word)
  /-- `IMUL_Gv_Ev_Iv`, 69 (R377). -/
  | imulGvEvIv (p : Pfx) (g : Reg) (rm : RM) (imm : Word)
  /-- `PUSH_Ibs`, 6A (R441). -/
  | pushIbs (p : Pfx) (imm : Byte)
  /-- `IMUL_Gv_Ev_Ibs`, 6B (R377). -/
  | imulGvEvIbs (p : Pfx) (g : Reg) (rm : RM) (imm : Byte)
  /-- `TEST_Eb_Gb`, 84 (R370). -/
  | testEbGb (p : Pfx) (rm : RM) (g : Reg)
  /-- `TEST_Ev_Gv`, 85 (R370). -/
  | testEvGv (p : Pfx) (rm : RM) (g : Reg)
  /-- `XCHG_Eb_Gb`, 86 (R427). -/
  | xchgEbGb (p : Pfx) (rm : RM) (g : Reg)
  /-- `XCHG_Ev_Gv`, 87 (R427). -/
  | xchgEvGv (p : Pfx) (rm : RM) (g : Reg)
  /-- `MOV_Eb_Gb`, 88 (R420). -/
  | movEbGb (p : Pfx) (rm : RM) (g : Reg)
  /-- `MOV_Ev_Gv`, 89 (R420). -/
  | movEvGv (p : Pfx) (rm : RM) (g : Reg)
  /-- `MOV_Gb_Eb`, 8A (R420). -/
  | movGbEb (p : Pfx) (g : Reg) (rm : RM)
  /-- `MOV_Gv_Ev`, 8B (R420). -/
  | movGvEv (p : Pfx) (g : Reg) (rm : RM)
  /-- `MOV_Ew_Sreg`, 8C (R423). -/
  | movEwSreg (p : Pfx) (rm : RM) (sr : Seg)
  /-- `LEA_Gv_M`, 8D (R429). -/
  | leaGvM (p : Pfx) (g : Reg) (m : MemOp)
  /-- `MOV_Sreg_Ew`, 8E (R424). -/
  | movSregEw (p : Pfx) (sr : Seg) (rm : RM)
  /-- `NOP`, 90 (R428). -/
  | nop (p : Pfx)
  /-- `CBW_CWDE`, 98 (R430). -/
  | cbw (p : Pfx)
  /-- `CWD_CDQ`, 99 (R431). -/
  | cwd (p : Pfx)
  /-- `FWAIT`, 9B (R576). -/
  | fwait (p : Pfx)
  /-- `PUSHF_PUSHFD`, 9C (R334). -/
  | pushf (p : Pfx)
  /-- `POPF_POPFD`, 9D (R335). -/
  | popf (p : Pfx)
  /-- `MOV_AL_moffs8`, A0 (R421). -/
  | movAlMoffs (p : Pfx) (imm : Word)
  /-- `MOV_eAX_moffsv`, A1 (R421). -/
  | movEaxMoffs (p : Pfx) (imm : Word)
  /-- `MOV_moffs8_AL`, A2 (R421). -/
  | movMoffsAl (p : Pfx) (imm : Word)
  /-- `MOV_moffsv_eAX`, A3 (R421). -/
  | movMoffsEax (p : Pfx) (imm : Word)
  /-- `TEST_AL_Ib`, A8 (R370). -/
  | testAlIb (p : Pfx) (imm : Byte)
  /-- `TEST_eAX_Iv`, A9 (R370). -/
  | testEaxIv (p : Pfx) (imm : Word)
  /-- `RET_Iw`, C2 (R458). -/
  | retIw (p : Pfx) (imm : Half)
  /-- `RET`, C3 (R458). -/
  | ret (p : Pfx)
  /-- `INT3`, CC (R343). -/
  | int3 (p : Pfx)
  /-- `INT_Ib`, CD (R336). -/
  | intIb (p : Pfx) (imm : Byte)
  /-- `IRET_IRETD`, CF (R340). -/
  | iret (p : Pfx)
  /-- `LOOPNE_rel8`, E0 (R455). -/
  | loopneRel8 (p : Pfx) (imm : Byte)
  /-- `LOOPE_rel8`, E1 (R455). -/
  | loopeRel8 (p : Pfx) (imm : Byte)
  /-- `LOOP_rel8`, E2 (R455). -/
  | loopRel8 (p : Pfx) (imm : Byte)
  /-- `JCXZ_JECXZ_rel8`, E3 (R454). -/
  | jcxzRel8 (p : Pfx) (imm : Byte)
  /-- `IN_AL_Ib`, E4 (R485). -/
  | inAlIb (p : Pfx) (imm : Byte)
  /-- `IN_eAX_Ib`, E5 (R485). -/
  | inEaxIb (p : Pfx) (imm : Byte)
  /-- `OUT_Ib_AL`, E6 (R487). -/
  | outIbAl (p : Pfx) (imm : Byte)
  /-- `OUT_Ib_eAX`, E7 (R487). -/
  | outIbEax (p : Pfx) (imm : Byte)
  /-- `CALL_relv`, E8 (R456). -/
  | callRelv (p : Pfx) (imm : Word)
  /-- `JMP_relv`, E9 (R451). -/
  | jmpRelv (p : Pfx) (imm : Word)
  /-- `JMP_ptr16_v`, EA (R459). -/
  | jmpPtr (p : Pfx) (off : Word) (sel : Half)
  /-- `JMP_rel8`, EB (R451). -/
  | jmpRel8 (p : Pfx) (imm : Byte)
  /-- `IN_AL_DX`, EC (R485). -/
  | inAlDx (p : Pfx)
  /-- `IN_eAX_DX`, ED (R485). -/
  | inEaxDx (p : Pfx)
  /-- `OUT_DX_AL`, EE (R487). -/
  | outDxAl (p : Pfx)
  /-- `OUT_DX_eAX`, EF (R487). -/
  | outDxEax (p : Pfx)
  /-- `HLT`, F4 (R481). -/
  | hlt (p : Pfx)
  /-- `CLI`, FA (R332). -/
  | cli (p : Pfx)
  /-- `STI`, FB (R333). -/
  | sti (p : Pfx)
  /-- `INVD`, 0F 08 (R482). -/
  | invd (p : Pfx)
  /-- `WBINVD`, 0F 09 (R483). -/
  | wbinvd (p : Pfx)
  /-- `MOV_r32_DRn`, 0F 21 (R497). -/
  | movRDr (p : Pfx) (r : Reg) (n : BitVec 3)
  /-- `MOV_DRn_r32`, 0F 23 (R496). -/
  | movDrR (p : Pfx) (n : BitVec 3) (r : Reg)
  /-- `WRMSR`, 0F 30 (R308). -/
  | wrmsr (p : Pfx)
  /-- `RDTSC`, 0F 31 (R306). -/
  | rdtsc (p : Pfx)
  /-- `RDMSR`, 0F 32 (R307). -/
  | rdmsr (p : Pfx)
  /-- `CPUID`, 0F A2 (R300). -/
  | cpuid (p : Pfx)
  /-- `BT_Ev_Gv`, 0F A3 (R390). -/
  | btEvGv (p : Pfx) (rm : RM) (g : Reg)
  /-- `SHLD_Ev_Gv_Ib`, 0F A4 (R387). -/
  | shldEvGvIb (p : Pfx) (rm : RM) (g : Reg) (imm : Byte)
  /-- `SHLD_Ev_Gv_CL`, 0F A5 (R387). -/
  | shldEvGvCl (p : Pfx) (rm : RM) (g : Reg)
  /-- `RSM`, 0F AA (R312). -/
  | rsm (p : Pfx)
  /-- `BTS_Ev_Gv`, 0F AB (R391). -/
  | btsEvGv (p : Pfx) (rm : RM) (g : Reg)
  /-- `SHRD_Ev_Gv_Ib`, 0F AC (R388). -/
  | shrdEvGvIb (p : Pfx) (rm : RM) (g : Reg) (imm : Byte)
  /-- `SHRD_Ev_Gv_CL`, 0F AD (R388). -/
  | shrdEvGvCl (p : Pfx) (rm : RM) (g : Reg)
  /-- `IMUL_Gv_Ev`, 0F AF (R377). -/
  | imulGvEv (p : Pfx) (g : Reg) (rm : RM)
  /-- `BTR_Ev_Gv`, 0F B3 (R392). -/
  | btrEvGv (p : Pfx) (rm : RM) (g : Reg)
  /-- `MOVZX_Gv_Eb`, 0F B6 (R425). -/
  | movzxGvEb (p : Pfx) (g : Reg) (rm : RM)
  /-- `MOVZX_Gv_Ew`, 0F B7 (R425). -/
  | movzxGvEw (p : Pfx) (g : Reg) (rm : RM)
  /-- `BTC_Ev_Gv`, 0F BB (R393). -/
  | btcEvGv (p : Pfx) (rm : RM) (g : Reg)
  /-- `BSF_Gv_Ev`, 0F BC (R394). -/
  | bsfGvEv (p : Pfx) (g : Reg) (rm : RM)
  /-- `BSR_Gv_Ev`, 0F BD (R395). -/
  | bsrGvEv (p : Pfx) (g : Reg) (rm : RM)
  /-- `MOVSX_Gv_Eb`, 0F BE (R426). -/
  | movsxGvEb (p : Pfx) (g : Reg) (rm : RM)
  /-- `MOVSX_Gv_Ew`, 0F BF (R426). -/
  | movsxGvEw (p : Pfx) (g : Reg) (rm : RM)
  /-- `none___guaranteed_invalid_opcode__raises_UD`, 0F FF (R313). -/
  | illegal0FFF (p : Pfx)
  /-- `INC_r16_r32`, 40 (R371). -/
  | incR (p : Pfx) (r : Reg)
  /-- `DEC_r16_r32`, 48 (R372). -/
  | decR (p : Pfx) (r : Reg)
  /-- `PUSH_r16_r32`, 50 (R441). -/
  | pushR (p : Pfx) (r : Reg)
  /-- `POP_r16_r32`, 58 (R442). -/
  | popR (p : Pfx) (r : Reg)
  /-- `XCHG_eAX_r16_r32__90+r__r____0`, 90 (R427). -/
  | xchgEaxR (p : Pfx) (r : Reg)
  /-- `MOV_r8_Ib`, B0 (R422). -/
  | movR8Ib (p : Pfx) (r : Reg) (imm : Byte)
  /-- `MOV_r16_r32_Iv`, B8 (R422). -/
  | movRIv (p : Pfx) (r : Reg) (imm : Word)
  /-- `BSWAP_r32`, 0F C8 (R396). -/
  | bswapR (p : Pfx) (r : Reg)
  /-- `Jcc_rel8__70+cc`, 70 (R453). -/
  | jccRel8 (p : Pfx) (cc : Cond) (imm : Byte)
  /-- `Jcc_relv__0F_80+cc`, 0F 80 (R453). -/
  | jccRelv (p : Pfx) (cc : Cond) (imm : Word)
  /-- `SETcc_Eb__0F_90+cc`, 0F 90 (R432). -/
  | setccEb (p : Pfx) (cc : Cond) (rm : RM)
  deriving DecidableEq, Repr

end Sys2Proof
end

