-- ==== Sys2Proof/WellFormed.lean ====
section
/-! DEFINITION. Which instruction terms stand for an encoding: the operand fits the attribute sizes, the address
form agrees with the address size, and LOCK is only where R277 accepts it. -/
namespace Sys2Proof

/-- A 32-bit field holds a value that its attribute size can encode (R269). -/
def fits (o : OSz) (v : Word) : Bool :=
  match o with
  | .o16 => decide (v.toNat < 65536)
  | .o32 => true

/-- A memory operand agrees with the address size, and ESP is no index (R266). -/
def MemOp.wf (a : OSz) : MemOp → Bool
  | .m16 _ _ => a == .o16
  | .m32 _ none _ => a == .o32
  | .m32 _ (some (i, _)) _ => a == .o32 && i != .esp

/-- An r/m operand is a register or a well-formed memory operand. -/
def RM.wf (a : OSz) : RM → Bool
  | .reg _ => true
  | .mem m => m.wf a

/-- The operand is in memory. -/
def RM.isMem : RM → Bool
  | .reg _ => false
  | .mem _ => true

/-- An instruction that takes no LOCK (R277). -/
def noLock (p : Pfx) : Bool := !p.lock

/-- LOCK only with a memory destination (R277). -/
def lockMem (p : Pfx) (rm : RM) : Bool := !p.lock || rm.isMem

/-- The checks of each instruction. -/
def Instr.wf : Instr → Bool
  | .fabs p => noLock p
  | .fchs p => noLock p
  | .fcompp p => noLock p
  | .fdecstp p => noLock p
  | .fnop p => noLock p
  | .frndint p => noLock p
  | .fscale p => noLock p
  | .ftst p => noLock p
  | .fucompp p => noLock p
  | .fxam p => noLock p
  | .fxtract p => noLock p
  | .faddStSti p _ => noLock p
  | .faddStiSt p _ => noLock p
  | .faddpStiSt p _ => noLock p
  | .fcomSti p _ => noLock p
  | .fcompSti p _ => noLock p
  | .fldSti p _ => noLock p
  | .fmulStSti p _ => noLock p
  | .fmulStiSt p _ => noLock p
  | .fmulpStiSt p _ => noLock p
  | .fstSti p _ => noLock p
  | .fstpSti p _ => noLock p
  | .fsubStSti p _ => noLock p
  | .fsubStiSt p _ => noLock p
  | .fsubpStiSt p _ => noLock p
  | .fsubrStSti p _ => noLock p
  | .fsubrStiSt p _ => noLock p
  | .fsubrpStiSt p _ => noLock p
  | .fucomSti p _ => noLock p
  | .fucompSti p _ => noLock p
  | .fxchSti p _ => noLock p
  | .addEbIb p rm _ => lockMem p rm && rm.wf p.asz
  | .addEvIv p rm imm => lockMem p rm && rm.wf p.asz && fits p.osz imm
  | .addEvIbs p rm _ => lockMem p rm && rm.wf p.asz
  | .orEbIb p rm _ => lockMem p rm && rm.wf p.asz
  | .orEvIv p rm imm => lockMem p rm && rm.wf p.asz && fits p.osz imm
  | .orEvIbs p rm _ => lockMem p rm && rm.wf p.asz
  | .adcEbIb p rm _ => lockMem p rm && rm.wf p.asz
  | .adcEvIv p rm imm => lockMem p rm && rm.wf p.asz && fits p.osz imm
  | .adcEvIbs p rm _ => lockMem p rm && rm.wf p.asz
  | .sbbEbIb p rm _ => lockMem p rm && rm.wf p.asz
  | .sbbEvIv p rm imm => lockMem p rm && rm.wf p.asz && fits p.osz imm
  | .sbbEvIbs p rm _ => lockMem p rm && rm.wf p.asz
  | .andEbIb p rm _ => lockMem p rm && rm.wf p.asz
  | .andEvIv p rm imm => lockMem p rm && rm.wf p.asz && fits p.osz imm
  | .andEvIbs p rm _ => lockMem p rm && rm.wf p.asz
  | .subEbIb p rm _ => lockMem p rm && rm.wf p.asz
  | .subEvIv p rm imm => lockMem p rm && rm.wf p.asz && fits p.osz imm
  | .subEvIbs p rm _ => lockMem p rm && rm.wf p.asz
  | .xorEbIb p rm _ => lockMem p rm && rm.wf p.asz
  | .xorEvIv p rm imm => lockMem p rm && rm.wf p.asz && fits p.osz imm
  | .xorEvIbs p rm _ => lockMem p rm && rm.wf p.asz
  | .cmpEbIb p rm _ => noLock p && rm.wf p.asz
  | .cmpEvIv p rm imm => noLock p && rm.wf p.asz && fits p.osz imm
  | .cmpEvIbs p rm _ => noLock p && rm.wf p.asz
  | .popEv p rm => noLock p && rm.wf p.asz
  | .rolEbIb p rm _ => noLock p && rm.wf p.asz
  | .rolEvIb p rm _ => noLock p && rm.wf p.asz
  | .rolEb1 p rm => noLock p && rm.wf p.asz
  | .rolEv1 p rm => noLock p && rm.wf p.asz
  | .rolEbCl p rm => noLock p && rm.wf p.asz
  | .rolEvCl p rm => noLock p && rm.wf p.asz
  | .rorEbIb p rm _ => noLock p && rm.wf p.asz
  | .rorEvIb p rm _ => noLock p && rm.wf p.asz
  | .rorEb1 p rm => noLock p && rm.wf p.asz
  | .rorEv1 p rm => noLock p && rm.wf p.asz
  | .rorEbCl p rm => noLock p && rm.wf p.asz
  | .rorEvCl p rm => noLock p && rm.wf p.asz
  | .shlEbIb p rm _ => noLock p && rm.wf p.asz
  | .shlEvIb p rm _ => noLock p && rm.wf p.asz
  | .shlEb1 p rm => noLock p && rm.wf p.asz
  | .shlEv1 p rm => noLock p && rm.wf p.asz
  | .shlEbCl p rm => noLock p && rm.wf p.asz
  | .shlEvCl p rm => noLock p && rm.wf p.asz
  | .shrEbIb p rm _ => noLock p && rm.wf p.asz
  | .shrEvIb p rm _ => noLock p && rm.wf p.asz
  | .shrEb1 p rm => noLock p && rm.wf p.asz
  | .shrEv1 p rm => noLock p && rm.wf p.asz
  | .shrEbCl p rm => noLock p && rm.wf p.asz
  | .shrEvCl p rm => noLock p && rm.wf p.asz
  | .sarEbIb p rm _ => noLock p && rm.wf p.asz
  | .sarEvIb p rm _ => noLock p && rm.wf p.asz
  | .sarEb1 p rm => noLock p && rm.wf p.asz
  | .sarEv1 p rm => noLock p && rm.wf p.asz
  | .sarEbCl p rm => noLock p && rm.wf p.asz
  | .sarEvCl p rm => noLock p && rm.wf p.asz
  | .movEbIb p rm _ => noLock p && rm.wf p.asz
  | .movEvIv p rm imm => noLock p && rm.wf p.asz && fits p.osz imm
  | .testEbIb p rm _ => noLock p && rm.wf p.asz
  | .notEb p rm => lockMem p rm && rm.wf p.asz
  | .negEb p rm => lockMem p rm && rm.wf p.asz
  | .mulEb p rm => noLock p && rm.wf p.asz
  | .imulEb p rm => noLock p && rm.wf p.asz
  | .divEb p rm => noLock p && rm.wf p.asz
  | .idivEb p rm => noLock p && rm.wf p.asz
  | .testEvIv p rm imm => noLock p && rm.wf p.asz && fits p.osz imm
  | .notEv p rm => lockMem p rm && rm.wf p.asz
  | .negEv p rm => lockMem p rm && rm.wf p.asz
  | .mulEv p rm => noLock p && rm.wf p.asz
  | .imulEv p rm => noLock p && rm.wf p.asz
  | .divEv p rm => noLock p && rm.wf p.asz
  | .idivEv p rm => noLock p && rm.wf p.asz
  | .incEb p rm => lockMem p rm && rm.wf p.asz
  | .decEb p rm => lockMem p rm && rm.wf p.asz
  | .incEv p rm => lockMem p rm && rm.wf p.asz
  | .decEv p rm => lockMem p rm && rm.wf p.asz
  | .callEv p rm => noLock p && rm.wf p.asz
  | .jmpEv p rm => noLock p && rm.wf p.asz
  | .jmpMp p m => noLock p && m.wf p.asz
  | .pushEv p rm => noLock p && rm.wf p.asz
  | .lldtEw p rm => noLock p && rm.wf p.asz
  | .ltrEw p rm => noLock p && rm.wf p.asz
  | .lgdtMs p m => noLock p && m.wf p.asz
  | .lidtMs p m => noLock p && m.wf p.asz
  | .invlpgM p m => noLock p && m.wf p.asz
  | .movRCr0 p _ => noLock p
  | .movRCr2 p _ => noLock p
  | .movRCr3 p _ => noLock p
  | .movRCr4 p _ => noLock p
  | .movCr0R p _ => noLock p
  | .movCr2R p _ => noLock p
  | .movCr3R p _ => noLock p
  | .movCr4R p _ => noLock p
  | .btEvIb p rm _ => lockMem p rm && rm.wf p.asz
  | .btsEvIb p rm _ => lockMem p rm && rm.wf p.asz
  | .btrEvIb p rm _ => lockMem p rm && rm.wf p.asz
  | .btcEvIb p rm _ => lockMem p rm && rm.wf p.asz
  | .cmpxchg8bMq p m => m.wf p.asz
  | .faddM32 p m => noLock p && m.wf p.asz
  | .faddM64 p m => noLock p && m.wf p.asz
  | .fcomM32 p m => noLock p && m.wf p.asz
  | .fcomM64 p m => noLock p && m.wf p.asz
  | .fcompM32 p m => noLock p && m.wf p.asz
  | .fcompM64 p m => noLock p && m.wf p.asz
  | .fiaddM16 p m => noLock p && m.wf p.asz
  | .fiaddM32 p m => noLock p && m.wf p.asz
  | .ficomM16 p m => noLock p && m.wf p.asz
  | .ficomM32 p m => noLock p && m.wf p.asz
  | .ficompM16 p m => noLock p && m.wf p.asz
  | .ficompM32 p m => noLock p && m.wf p.asz
  | .fildM16 p m => noLock p && m.wf p.asz
  | .fildM32 p m => noLock p && m.wf p.asz
  | .fildM64 p m => noLock p && m.wf p.asz
  | .fimulM16 p m => noLock p && m.wf p.asz
  | .fimulM32 p m => noLock p && m.wf p.asz
  | .fistM16 p m => noLock p && m.wf p.asz
  | .fistM32 p m => noLock p && m.wf p.asz
  | .fistpM16 p m => noLock p && m.wf p.asz
  | .fistpM32 p m => noLock p && m.wf p.asz
  | .fistpM64 p m => noLock p && m.wf p.asz
  | .fisubM16 p m => noLock p && m.wf p.asz
  | .fisubM32 p m => noLock p && m.wf p.asz
  | .fisubrM16 p m => noLock p && m.wf p.asz
  | .fisubrM32 p m => noLock p && m.wf p.asz
  | .fldM32 p m => noLock p && m.wf p.asz
  | .fldM64 p m => noLock p && m.wf p.asz
  | .fldM80 p m => noLock p && m.wf p.asz
  | .fmulM32 p m => noLock p && m.wf p.asz
  | .fmulM64 p m => noLock p && m.wf p.asz
  | .fstM32 p m => noLock p && m.wf p.asz
  | .fstM64 p m => noLock p && m.wf p.asz
  | .fstpM32 p m => noLock p && m.wf p.asz
  | .fstpM64 p m => noLock p && m.wf p.asz
  | .fstpM80 p m => noLock p && m.wf p.asz
  | .fsubM32 p m => noLock p && m.wf p.asz
  | .fsubM64 p m => noLock p && m.wf p.asz
  | .fsubrM32 p m => noLock p && m.wf p.asz
  | .fsubrM64 p m => noLock p && m.wf p.asz
  | .addEbGb p rm _ => lockMem p rm && rm.wf p.asz
  | .addEvGv p rm _ => lockMem p rm && rm.wf p.asz
  | .addGbEb p _ rm => noLock p && rm.wf p.asz
  | .addGvEv p _ rm => noLock p && rm.wf p.asz
  | .addAlIb p _ => noLock p
  | .addEaxIv p imm => noLock p && fits p.osz imm
  | .orEbGb p rm _ => lockMem p rm && rm.wf p.asz
  | .orEvGv p rm _ => lockMem p rm && rm.wf p.asz
  | .orGbEb p _ rm => noLock p && rm.wf p.asz
  | .orGvEv p _ rm => noLock p && rm.wf p.asz
  | .orAlIb p _ => noLock p
  | .orEaxIv p imm => noLock p && fits p.osz imm
  | .adcEbGb p rm _ => lockMem p rm && rm.wf p.asz
  | .adcEvGv p rm _ => lockMem p rm && rm.wf p.asz
  | .adcGbEb p _ rm => noLock p && rm.wf p.asz
  | .adcGvEv p _ rm => noLock p && rm.wf p.asz
  | .adcAlIb p _ => noLock p
  | .adcEaxIv p imm => noLock p && fits p.osz imm
  | .sbbEbGb p rm _ => lockMem p rm && rm.wf p.asz
  | .sbbEvGv p rm _ => lockMem p rm && rm.wf p.asz
  | .sbbGbEb p _ rm => noLock p && rm.wf p.asz
  | .sbbGvEv p _ rm => noLock p && rm.wf p.asz
  | .sbbAlIb p _ => noLock p
  | .sbbEaxIv p imm => noLock p && fits p.osz imm
  | .andEbGb p rm _ => lockMem p rm && rm.wf p.asz
  | .andEvGv p rm _ => lockMem p rm && rm.wf p.asz
  | .andGbEb p _ rm => noLock p && rm.wf p.asz
  | .andGvEv p _ rm => noLock p && rm.wf p.asz
  | .andAlIb p _ => noLock p
  | .andEaxIv p imm => noLock p && fits p.osz imm
  | .subEbGb p rm _ => lockMem p rm && rm.wf p.asz
  | .subEvGv p rm _ => lockMem p rm && rm.wf p.asz
  | .subGbEb p _ rm => noLock p && rm.wf p.asz
  | .subGvEv p _ rm => noLock p && rm.wf p.asz
  | .subAlIb p _ => noLock p
  | .subEaxIv p imm => noLock p && fits p.osz imm
  | .xorEbGb p rm _ => lockMem p rm && rm.wf p.asz
  | .xorEvGv p rm _ => lockMem p rm && rm.wf p.asz
  | .xorGbEb p _ rm => noLock p && rm.wf p.asz
  | .xorGvEv p _ rm => noLock p && rm.wf p.asz
  | .xorAlIb p _ => noLock p
  | .xorEaxIv p imm => noLock p && fits p.osz imm
  | .cmpEbGb p rm _ => noLock p && rm.wf p.asz
  | .cmpEvGv p rm _ => noLock p && rm.wf p.asz
  | .cmpGbEb p _ rm => noLock p && rm.wf p.asz
  | .cmpGvEv p _ rm => noLock p && rm.wf p.asz
  | .cmpAlIb p _ => noLock p
  | .cmpEaxIv p imm => noLock p && fits p.osz imm
  | .popSs p => noLock p
  | .pushIv p imm => noLock p && fits p.osz imm
  | .imulGvEvIv p _ rm imm => noLock p && rm.wf p.asz && fits p.osz imm
  | .pushIbs p _ => noLock p
  | .imulGvEvIbs p _ rm _ => noLock p && rm.wf p.asz
  | .testEbGb p rm _ => noLock p && rm.wf p.asz
  | .testEvGv p rm _ => noLock p && rm.wf p.asz
  | .xchgEbGb p rm _ => lockMem p rm && rm.wf p.asz
  | .xchgEvGv p rm _ => lockMem p rm && rm.wf p.asz
  | .movEbGb p rm _ => noLock p && rm.wf p.asz
  | .movEvGv p rm _ => noLock p && rm.wf p.asz
  | .movGbEb p _ rm => noLock p && rm.wf p.asz
  | .movGvEv p _ rm => noLock p && rm.wf p.asz
  | .movEwSreg p rm _ => noLock p && rm.wf p.asz
  | .leaGvM p _ m => noLock p && m.wf p.asz
  | .movSregEw p sr rm => noLock p && rm.wf p.asz && (sr != .cs)
  | .nop p => noLock p
  | .cbw p => noLock p
  | .cwd p => noLock p
  | .fwait p => noLock p
  | .pushf p => noLock p
  | .popf p => noLock p
  | .movAlMoffs p imm => noLock p && fits p.asz imm
  | .movEaxMoffs p imm => noLock p && fits p.asz imm
  | .movMoffsAl p imm => noLock p && fits p.asz imm
  | .movMoffsEax p imm => noLock p && fits p.asz imm
  | .testAlIb p _ => noLock p
  | .testEaxIv p imm => noLock p && fits p.osz imm
  | .retIw p _ => noLock p
  | .ret p => noLock p
  | .int3 p => noLock p
  | .intIb p _ => noLock p
  | .iret p => noLock p
  | .loopneRel8 p _ => noLock p
  | .loopeRel8 p _ => noLock p
  | .loopRel8 p _ => noLock p
  | .jcxzRel8 p _ => noLock p
  | .inAlIb p _ => noLock p
  | .inEaxIb p _ => noLock p
  | .outIbAl p _ => noLock p
  | .outIbEax p _ => noLock p
  | .callRelv p imm => noLock p && fits p.osz imm
  | .jmpRelv p imm => noLock p && fits p.osz imm
  | .jmpPtr p off _ => noLock p && fits p.osz off
  | .jmpRel8 p _ => noLock p
  | .inAlDx p => noLock p
  | .inEaxDx p => noLock p
  | .outDxAl p => noLock p
  | .outDxEax p => noLock p
  | .hlt p => noLock p
  | .cli p => noLock p
  | .sti p => noLock p
  | .invd p => noLock p
  | .wbinvd p => noLock p
  | .movRDr p _ _ => noLock p
  | .movDrR p _ _ => noLock p
  | .wrmsr p => noLock p
  | .rdtsc p => noLock p
  | .rdmsr p => noLock p
  | .cpuid p => noLock p
  | .btEvGv p rm _ => lockMem p rm && rm.wf p.asz
  | .shldEvGvIb p rm _ _ => noLock p && rm.wf p.asz
  | .shldEvGvCl p rm _ => noLock p && rm.wf p.asz
  | .rsm p => noLock p
  | .btsEvGv p rm _ => lockMem p rm && rm.wf p.asz
  | .shrdEvGvIb p rm _ _ => noLock p && rm.wf p.asz
  | .shrdEvGvCl p rm _ => noLock p && rm.wf p.asz
  | .imulGvEv p _ rm => noLock p && rm.wf p.asz
  | .btrEvGv p rm _ => lockMem p rm && rm.wf p.asz
  | .movzxGvEb p _ rm => noLock p && rm.wf p.asz
  | .movzxGvEw p _ rm => noLock p && rm.wf p.asz
  | .btcEvGv p rm _ => lockMem p rm && rm.wf p.asz
  | .bsfGvEv p _ rm => noLock p && rm.wf p.asz
  | .bsrGvEv p _ rm => noLock p && rm.wf p.asz
  | .movsxGvEb p _ rm => noLock p && rm.wf p.asz
  | .movsxGvEw p _ rm => noLock p && rm.wf p.asz
  | .illegal0FFF p => noLock p
  | .incR p _ => noLock p
  | .decR p _ => noLock p
  | .pushR p _ => noLock p
  | .popR p _ => noLock p
  | .xchgEaxR p r => noLock p && (r != .eax)
  | .movR8Ib p _ _ => noLock p
  | .movRIv p _ imm => noLock p && fits p.osz imm
  | .bswapR p _ => noLock p
  | .jccRel8 p _ _ => noLock p
  | .jccRelv p _ imm => noLock p && fits p.osz imm
  | .setccEb p _ rm => noLock p && rm.wf p.asz

end Sys2Proof
end

