-- ==== Sys2Proof/Decode.lean ====
section
/-! DEFINITION. From bytes to an instruction and back. The decoder is total: it answers an instruction with its
length, that more bytes are needed, an invalid encoding (R279), or a refusal by name (R278).

The functions that build instructions stand in `noncomputable section`: Lean's code generator has no tag for an
inductive with more than 244 constructors that have fields, and the opcode table has 304 rows. The kernel
evaluates them as any other definition. -/
namespace Sys2Proof

/-- What the bytes so far decide (R260, R278 to R280). -/
inductive Decoded
  /-- A complete instruction and its length in bytes. -/
  | ok (i : Instr) (len : Nat)
  /-- The bytes do not end the instruction yet. -/
  | more
  /-- The bytes do not end the instruction yet, and no later byte can make it valid (R279, R280, R606). -/
  | doomed
  /-- An invalid encoding: UD (R279). -/
  | ud
  /-- An instruction outside the spec (R7, R278). -/
  | refused (name : String)
  deriving DecidableEq, Repr

/-- The register of a 3-bit field (R263). -/
def Reg.ofBits (b : BitVec 3) : Reg :=
  match b.toNat with
  | 0 => .eax | 1 => .ecx | 2 => .edx | 3 => .ebx | 4 => .esp | 5 => .ebp | 6 => .esi | _ => .edi

/-- The 3-bit number of a register (R263). -/
def Reg.toBits : Reg → BitVec 3
  | .eax => 0 | .ecx => 1 | .edx => 2 | .ebx => 3 | .esp => 4 | .ebp => 5 | .esi => 6 | .edi => 7

/-- The segment register of a 3-bit field; 6 and 7 name none (R263). -/
def Seg.ofBits (b : BitVec 3) : Option Seg :=
  match b.toNat with
  | 0 => some .es | 1 => some .cs | 2 => some .ss | 3 => some .ds | 4 => some .fs | 5 => some .gs | _ => none

/-- The 3-bit number of a segment register (R28). -/
def Seg.toBits : Seg → BitVec 3
  | .es => 0 | .cs => 1 | .ss => 2 | .ds => 3 | .fs => 4 | .gs => 5

/-- The condition of the low four bits of an opcode (R274). -/
def Cond.ofNibble (n : Nat) : Cond :=
  match n with
  | 0 => .o | 1 => .no | 2 => .b | 3 => .ae | 4 => .e | 5 => .ne | 6 => .be | 7 => .a
  | 8 => .s | 9 => .ns | 10 => .p | 11 => .np | 12 => .l | 13 => .ge | 14 => .le | _ => .g

/-- The code of a condition (R274). -/
def Cond.toNibble : Cond → Nat
  | .o => 0 | .no => 1 | .b => 2 | .ae => 3 | .e => 4 | .ne => 5 | .be => 6 | .a => 7
  | .s => 8 | .ns => 9 | .p => 10 | .np => 11 | .l => 12 | .ge => 13 | .le => 14 | .g => 15

/-- The sum named by `rm` in 16-bit addressing with `mod` not 00b (R267). -/
def Base16.ofBits (b : BitVec 3) : Base16 :=
  match b.toNat with
  | 0 => .bxsi | 1 => .bxdi | 2 => .bpsi | 3 => .bpdi | 4 => .si | 5 => .di | 6 => .bp | _ => .bx

/-- The `rm` field of a 16-bit sum; the form without a base is `rm` 6 with `mod` 00b. -/
def Base16.toBits : Base16 → BitVec 3
  | .bxsi => 0 | .bxdi => 1 | .bpsi => 2 | .bpdi => 3 | .si => 4 | .di => 5 | .bp => 6 | .bx => 7 | .abs => 6

/-- `k` bytes, least significant first (R269), and the rest. -/
def takeLe : Nat → List Byte → Option (Nat × List Byte)
  | 0, bs => some (0, bs)
  | _ + 1, [] => none
  | k + 1, b :: bs =>
    match takeLe k bs with
    | none => none
    | some (v, rest) => some (b.toNat + 256 * v, rest)

/-- `k` bytes of a number, least significant first (R269). -/
def giveLe : Nat → Nat → List Byte
  | 0, _ => []
  | k + 1, v => BitVec.ofNat 8 v :: giveLe k (v / 256)

/-- The bytes of an attribute's `v` field (R269). -/
def OSz.bytes : OSz → Nat
  | .o16 => 2
  | .o32 => 4

/-- A displacement of the SIB or ModRM form: 1 byte sign-extended, or 4 bytes (R265). -/
def takeDisp32 (mod : BitVec 2) (bs : List Byte) : Option (Word × Nat × List Byte) :=
  if mod = 0 then some (0, 0, bs)
  else if mod = 1 then
    match bs with
    | [] => none
    | b :: rest => some (b.signExtend 32, 1, rest)
  else
    match takeLe 4 bs with
    | none => none
    | some (v, rest) => some (BitVec.ofNat 32 v, 4, rest)

/-- The index of a SIB byte: number 4 names none (R266). -/
def sibIndex (sib : Byte) : Option (Reg × BitVec 2) :=
  let i := sib.extractLsb' 3 3
  if i = 4 then none else some (Reg.ofBits i, sib.extractLsb' 6 2)

/-- A 32-bit memory operand (R265, R266): the operand, the bytes it took after ModRM, the rest. -/
def decodeMem32 (mod : BitVec 2) (rm : BitVec 3) (bs : List Byte) : Option (MemOp × Nat × List Byte) :=
  if rm = 4 then
    match bs with
    | [] => none
    | sib :: rest =>
      let base : BitVec 3 := sib.extractLsb' 0 3
      if base = 5 ∧ mod = 0 then
        match takeLe 4 rest with
        | none => none
        | some (v, rest') => some (.m32 none (sibIndex sib) (BitVec.ofNat 32 v), 5, rest')
      else
        match takeDisp32 mod rest with
        | none => none
        | some (d, k, rest') => some (.m32 (some (Reg.ofBits base)) (sibIndex sib) d, k + 1, rest')
  else if rm = 5 ∧ mod = 0 then
    match takeLe 4 bs with
    | none => none
    | some (v, rest) => some (.m32 none none (BitVec.ofNat 32 v), 4, rest)
  else
    match takeDisp32 mod bs with
    | none => none
    | some (d, k, rest) => some (.m32 (some (Reg.ofBits rm)) none d, k, rest)

/-- A 16-bit memory operand (R267). -/
def decodeMem16 (mod : BitVec 2) (rm : BitVec 3) (bs : List Byte) : Option (MemOp × Nat × List Byte) :=
  if mod = 0 then
    if rm = 6 then
      match takeLe 2 bs with
      | none => none
      | some (v, rest) => some (.m16 .abs (BitVec.ofNat 16 v), 2, rest)
    else some (.m16 (Base16.ofBits rm) 0, 0, bs)
  else if mod = 1 then
    match bs with
    | [] => none
    | b :: rest => some (.m16 (Base16.ofBits rm) (b.signExtend 16), 1, rest)
  else
    match takeLe 2 bs with
    | none => none
    | some (v, rest) => some (.m16 (Base16.ofBits rm) (BitVec.ofNat 16 v), 2, rest)

/-- A memory operand of the given address size. -/
def decodeMem (a : OSz) (mod : BitVec 2) (rm : BitVec 3) (bs : List Byte) : Option (MemOp × Nat × List Byte) :=
  match a with
  | .o16 => decodeMem16 mod rm bs
  | .o32 => decodeMem32 mod rm bs

/-- What the ModRM byte selects in an opcode. -/
inductive MEntry
  /-- Invalid (R279). -/
  | ud
  /-- Invalid, with the operand bytes of another entry (R272, R280). -/
  | invalid (e : MEntry)
  /-- Outside the spec (R278). -/
  | refused (name : String)
  /-- An r/m operand and nothing after it; the flag is whether LOCK is accepted with a memory operand. -/
  | rm (lock : Bool) (f : Pfx → RM → Instr)
  /-- An r/m operand and a byte. -/
  | rmIb (lock : Bool) (f : Pfx → RM → Byte → Instr)
  /-- An r/m operand and an immediate of the operand size. -/
  | rmIv (lock : Bool) (f : Pfx → RM → Word → Instr)
  /-- A memory operand; a register form is invalid (R279 f). -/
  | mem (lock : Bool) (f : Pfx → MemOp → Instr)
  /-- The ModRM byte says everything. -/
  | bare (f : Pfx → Instr)

/-- What an opcode selects (R270, R271). -/
inductive Entry
  | ud
  | refused (name : String)
  | plain (f : Pfx → Instr)
  | ib (f : Pfx → Byte → Instr)
  | iw (f : Pfx → Half → Instr)
  | iv (f : Pfx → Word → Instr)
  | moffs (f : Pfx → Word → Instr)
  | ptr (f : Pfx → Word → Half → Instr)
  /-- A ModRM byte follows: its `reg` field, whether it names memory, its `rm` field. -/
  | modrm (sel : BitVec 3 → Bool → BitVec 3 → MEntry)

noncomputable section

/-- The one-byte opcode map (R270, R272, R273, R278). DESIGN CHOICE (log 42): an x87 encoding outside Table 4-3 is refused in every
state (R278, D2), with CR0.EM or TS set too, though the last sentence of R273 has every D8h to DFh raise NM first then. -/
def oneByte (b : Nat) : Entry :=
  match b with
  | 0x00 => .modrm fun reg _ _ => .rm true fun p x => .addEbGb p x (Reg.ofBits reg)
  | 0x01 => .modrm fun reg _ _ => .rm true fun p x => .addEvGv p x (Reg.ofBits reg)
  | 0x02 => .modrm fun reg _ _ => .rm false fun p x => .addGbEb p (Reg.ofBits reg) x
  | 0x03 => .modrm fun reg _ _ => .rm false fun p x => .addGvEv p (Reg.ofBits reg) x
  | 0x04 => .ib .addAlIb
  | 0x05 => .iv .addEaxIv
  | 0x06 => .refused "PUSH ES"
  | 0x07 => .refused "POP ES"
  | 0x08 => .modrm fun reg _ _ => .rm true fun p x => .orEbGb p x (Reg.ofBits reg)
  | 0x09 => .modrm fun reg _ _ => .rm true fun p x => .orEvGv p x (Reg.ofBits reg)
  | 0x0A => .modrm fun reg _ _ => .rm false fun p x => .orGbEb p (Reg.ofBits reg) x
  | 0x0B => .modrm fun reg _ _ => .rm false fun p x => .orGvEv p (Reg.ofBits reg) x
  | 0x0C => .ib .orAlIb
  | 0x0D => .iv .orEaxIv
  | 0x0E => .refused "PUSH CS"
  | 0x10 => .modrm fun reg _ _ => .rm true fun p x => .adcEbGb p x (Reg.ofBits reg)
  | 0x11 => .modrm fun reg _ _ => .rm true fun p x => .adcEvGv p x (Reg.ofBits reg)
  | 0x12 => .modrm fun reg _ _ => .rm false fun p x => .adcGbEb p (Reg.ofBits reg) x
  | 0x13 => .modrm fun reg _ _ => .rm false fun p x => .adcGvEv p (Reg.ofBits reg) x
  | 0x14 => .ib .adcAlIb
  | 0x15 => .iv .adcEaxIv
  | 0x16 => .refused "PUSH SS"
  | 0x17 => .plain .popSs
  | 0x18 => .modrm fun reg _ _ => .rm true fun p x => .sbbEbGb p x (Reg.ofBits reg)
  | 0x19 => .modrm fun reg _ _ => .rm true fun p x => .sbbEvGv p x (Reg.ofBits reg)
  | 0x1A => .modrm fun reg _ _ => .rm false fun p x => .sbbGbEb p (Reg.ofBits reg) x
  | 0x1B => .modrm fun reg _ _ => .rm false fun p x => .sbbGvEv p (Reg.ofBits reg) x
  | 0x1C => .ib .sbbAlIb
  | 0x1D => .iv .sbbEaxIv
  | 0x1E => .refused "PUSH DS"
  | 0x1F => .refused "POP DS"
  | 0x20 => .modrm fun reg _ _ => .rm true fun p x => .andEbGb p x (Reg.ofBits reg)
  | 0x21 => .modrm fun reg _ _ => .rm true fun p x => .andEvGv p x (Reg.ofBits reg)
  | 0x22 => .modrm fun reg _ _ => .rm false fun p x => .andGbEb p (Reg.ofBits reg) x
  | 0x23 => .modrm fun reg _ _ => .rm false fun p x => .andGvEv p (Reg.ofBits reg) x
  | 0x24 => .ib .andAlIb
  | 0x25 => .iv .andEaxIv
  | 0x27 => .refused "DAA"
  | 0x28 => .modrm fun reg _ _ => .rm true fun p x => .subEbGb p x (Reg.ofBits reg)
  | 0x29 => .modrm fun reg _ _ => .rm true fun p x => .subEvGv p x (Reg.ofBits reg)
  | 0x2A => .modrm fun reg _ _ => .rm false fun p x => .subGbEb p (Reg.ofBits reg) x
  | 0x2B => .modrm fun reg _ _ => .rm false fun p x => .subGvEv p (Reg.ofBits reg) x
  | 0x2C => .ib .subAlIb
  | 0x2D => .iv .subEaxIv
  | 0x2F => .refused "DAS"
  | 0x30 => .modrm fun reg _ _ => .rm true fun p x => .xorEbGb p x (Reg.ofBits reg)
  | 0x31 => .modrm fun reg _ _ => .rm true fun p x => .xorEvGv p x (Reg.ofBits reg)
  | 0x32 => .modrm fun reg _ _ => .rm false fun p x => .xorGbEb p (Reg.ofBits reg) x
  | 0x33 => .modrm fun reg _ _ => .rm false fun p x => .xorGvEv p (Reg.ofBits reg) x
  | 0x34 => .ib .xorAlIb
  | 0x35 => .iv .xorEaxIv
  | 0x37 => .refused "AAA"
  | 0x38 => .modrm fun reg _ _ => .rm false fun p x => .cmpEbGb p x (Reg.ofBits reg)
  | 0x39 => .modrm fun reg _ _ => .rm false fun p x => .cmpEvGv p x (Reg.ofBits reg)
  | 0x3A => .modrm fun reg _ _ => .rm false fun p x => .cmpGbEb p (Reg.ofBits reg) x
  | 0x3B => .modrm fun reg _ _ => .rm false fun p x => .cmpGvEv p (Reg.ofBits reg) x
  | 0x3C => .ib .cmpAlIb
  | 0x3D => .iv .cmpEaxIv
  | 0x3F => .refused "AAS"
  | 0x40 => .plain fun p => .incR p .eax
  | 0x41 => .plain fun p => .incR p .ecx
  | 0x42 => .plain fun p => .incR p .edx
  | 0x43 => .plain fun p => .incR p .ebx
  | 0x44 => .plain fun p => .incR p .esp
  | 0x45 => .plain fun p => .incR p .ebp
  | 0x46 => .plain fun p => .incR p .esi
  | 0x47 => .plain fun p => .incR p .edi
  | 0x48 => .plain fun p => .decR p .eax
  | 0x49 => .plain fun p => .decR p .ecx
  | 0x4A => .plain fun p => .decR p .edx
  | 0x4B => .plain fun p => .decR p .ebx
  | 0x4C => .plain fun p => .decR p .esp
  | 0x4D => .plain fun p => .decR p .ebp
  | 0x4E => .plain fun p => .decR p .esi
  | 0x4F => .plain fun p => .decR p .edi
  | 0x50 => .plain fun p => .pushR p .eax
  | 0x51 => .plain fun p => .pushR p .ecx
  | 0x52 => .plain fun p => .pushR p .edx
  | 0x53 => .plain fun p => .pushR p .ebx
  | 0x54 => .plain fun p => .pushR p .esp
  | 0x55 => .plain fun p => .pushR p .ebp
  | 0x56 => .plain fun p => .pushR p .esi
  | 0x57 => .plain fun p => .pushR p .edi
  | 0x58 => .plain fun p => .popR p .eax
  | 0x59 => .plain fun p => .popR p .ecx
  | 0x5A => .plain fun p => .popR p .edx
  | 0x5B => .plain fun p => .popR p .ebx
  | 0x5C => .plain fun p => .popR p .esp
  | 0x5D => .plain fun p => .popR p .ebp
  | 0x5E => .plain fun p => .popR p .esi
  | 0x5F => .plain fun p => .popR p .edi
  | 0x60 => .refused "PUSHA"
  | 0x61 => .refused "POPA"
  | 0x62 => .refused "BOUND"
  | 0x63 => .refused "ARPL"
  | 0x68 => .iv .pushIv
  | 0x69 => .modrm fun reg _ _ => .rmIv false fun p x i => .imulGvEvIv p (Reg.ofBits reg) x i
  | 0x6A => .ib .pushIbs
  | 0x6B => .modrm fun reg _ _ => .rmIb false fun p x i => .imulGvEvIbs p (Reg.ofBits reg) x i
  | 0x6C => .refused "INS"
  | 0x6D => .refused "INS"
  | 0x6E => .refused "OUTS"
  | 0x6F => .refused "OUTS"
  | 0x70 => .ib fun p i => .jccRel8 p .o i
  | 0x71 => .ib fun p i => .jccRel8 p .no i
  | 0x72 => .ib fun p i => .jccRel8 p .b i
  | 0x73 => .ib fun p i => .jccRel8 p .ae i
  | 0x74 => .ib fun p i => .jccRel8 p .e i
  | 0x75 => .ib fun p i => .jccRel8 p .ne i
  | 0x76 => .ib fun p i => .jccRel8 p .be i
  | 0x77 => .ib fun p i => .jccRel8 p .a i
  | 0x78 => .ib fun p i => .jccRel8 p .s i
  | 0x79 => .ib fun p i => .jccRel8 p .ns i
  | 0x7A => .ib fun p i => .jccRel8 p .p i
  | 0x7B => .ib fun p i => .jccRel8 p .np i
  | 0x7C => .ib fun p i => .jccRel8 p .l i
  | 0x7D => .ib fun p i => .jccRel8 p .ge i
  | 0x7E => .ib fun p i => .jccRel8 p .le i
  | 0x7F => .ib fun p i => .jccRel8 p .g i
  | 0x80 => .modrm fun reg _ _ => (match reg.toNat with | 0 => .rmIb true .addEbIb | 1 => .rmIb true .orEbIb | 2 => .rmIb true .adcEbIb | 3 => .rmIb true .sbbEbIb | 4 => .rmIb true .andEbIb | 5 => .rmIb true .subEbIb | 6 => .rmIb true .xorEbIb | _ => .rmIb false .cmpEbIb)
  | 0x81 => .modrm fun reg _ _ => (match reg.toNat with | 0 => .rmIv true .addEvIv | 1 => .rmIv true .orEvIv | 2 => .rmIv true .adcEvIv | 3 => .rmIv true .sbbEvIv | 4 => .rmIv true .andEvIv | 5 => .rmIv true .subEvIv | 6 => .rmIv true .xorEvIv | _ => .rmIv false .cmpEvIv)
  | 0x82 => .refused "group 1 alias 82"
  | 0x83 => .modrm fun reg _ _ => (match reg.toNat with | 0 => .rmIb true .addEvIbs | 1 => .rmIb true .orEvIbs | 2 => .rmIb true .adcEvIbs | 3 => .rmIb true .sbbEvIbs | 4 => .rmIb true .andEvIbs | 5 => .rmIb true .subEvIbs | 6 => .rmIb true .xorEvIbs | _ => .rmIb false .cmpEvIbs)
  | 0x84 => .modrm fun reg _ _ => .rm false fun p x => .testEbGb p x (Reg.ofBits reg)
  | 0x85 => .modrm fun reg _ _ => .rm false fun p x => .testEvGv p x (Reg.ofBits reg)
  | 0x86 => .modrm fun reg _ _ => .rm true fun p x => .xchgEbGb p x (Reg.ofBits reg)
  | 0x87 => .modrm fun reg _ _ => .rm true fun p x => .xchgEvGv p x (Reg.ofBits reg)
  | 0x88 => .modrm fun reg _ _ => .rm false fun p x => .movEbGb p x (Reg.ofBits reg)
  | 0x89 => .modrm fun reg _ _ => .rm false fun p x => .movEvGv p x (Reg.ofBits reg)
  | 0x8A => .modrm fun reg _ _ => .rm false fun p x => .movGbEb p (Reg.ofBits reg) x
  | 0x8B => .modrm fun reg _ _ => .rm false fun p x => .movGvEv p (Reg.ofBits reg) x
  | 0x8C => .modrm fun reg _ _ => (match Seg.ofBits reg with | some sr => .rm false fun p x => .movEwSreg p x sr | none => .invalid (.rm false fun p x => .movEwSreg p x .es))
  | 0x8D => .modrm fun reg _ _ => .mem false fun p m => .leaGvM p (Reg.ofBits reg) m
  | 0x8E => .modrm fun reg _ _ => (match Seg.ofBits reg with | some .cs => .invalid (.rm false fun p x => .movSregEw p .es x) | some sr => .rm false fun p x => .movSregEw p sr x | none => .invalid (.rm false fun p x => .movSregEw p .es x))
  | 0x8F => .modrm fun reg _ _ => (match reg.toNat with | 0 => .rm false .popEv | _ => .invalid (.rm false .popEv))
  | 0x90 => .plain .nop
  | 0x91 => .plain fun p => .xchgEaxR p .ecx
  | 0x92 => .plain fun p => .xchgEaxR p .edx
  | 0x93 => .plain fun p => .xchgEaxR p .ebx
  | 0x94 => .plain fun p => .xchgEaxR p .esp
  | 0x95 => .plain fun p => .xchgEaxR p .ebp
  | 0x96 => .plain fun p => .xchgEaxR p .esi
  | 0x97 => .plain fun p => .xchgEaxR p .edi
  | 0x98 => .plain .cbw
  | 0x99 => .plain .cwd
  | 0x9A => .refused "far CALL"
  | 0x9B => .plain .fwait
  | 0x9C => .plain .pushf
  | 0x9D => .plain .popf
  | 0x9E => .refused "SAHF"
  | 0x9F => .refused "LAHF"
  | 0xA0 => .moffs .movAlMoffs
  | 0xA1 => .moffs .movEaxMoffs
  | 0xA2 => .moffs .movMoffsAl
  | 0xA3 => .moffs .movMoffsEax
  | 0xA4 => .refused "MOVS"
  | 0xA5 => .refused "MOVS"
  | 0xA6 => .refused "CMPS"
  | 0xA7 => .refused "CMPS"
  | 0xA8 => .ib .testAlIb
  | 0xA9 => .iv .testEaxIv
  | 0xAA => .refused "STOS"
  | 0xAB => .refused "STOS"
  | 0xAC => .refused "LODS"
  | 0xAD => .refused "LODS"
  | 0xAE => .refused "SCAS"
  | 0xAF => .refused "SCAS"
  | 0xB0 => .ib fun p i => .movR8Ib p .eax i
  | 0xB1 => .ib fun p i => .movR8Ib p .ecx i
  | 0xB2 => .ib fun p i => .movR8Ib p .edx i
  | 0xB3 => .ib fun p i => .movR8Ib p .ebx i
  | 0xB4 => .ib fun p i => .movR8Ib p .esp i
  | 0xB5 => .ib fun p i => .movR8Ib p .ebp i
  | 0xB6 => .ib fun p i => .movR8Ib p .esi i
  | 0xB7 => .ib fun p i => .movR8Ib p .edi i
  | 0xB8 => .iv fun p i => .movRIv p .eax i
  | 0xB9 => .iv fun p i => .movRIv p .ecx i
  | 0xBA => .iv fun p i => .movRIv p .edx i
  | 0xBB => .iv fun p i => .movRIv p .ebx i
  | 0xBC => .iv fun p i => .movRIv p .esp i
  | 0xBD => .iv fun p i => .movRIv p .ebp i
  | 0xBE => .iv fun p i => .movRIv p .esi i
  | 0xBF => .iv fun p i => .movRIv p .edi i
  | 0xC0 => .modrm fun reg _ _ => (match reg.toNat with | 0 => .rmIb false .rolEbIb | 1 => .rmIb false .rorEbIb | 2 => .refused "RCL" | 3 => .refused "RCR" | 4 => .rmIb false .shlEbIb | 5 => .rmIb false .shrEbIb | 6 => .refused "group 2 /6" | _ => .rmIb false .sarEbIb)
  | 0xC1 => .modrm fun reg _ _ => (match reg.toNat with | 0 => .rmIb false .rolEvIb | 1 => .rmIb false .rorEvIb | 2 => .refused "RCL" | 3 => .refused "RCR" | 4 => .rmIb false .shlEvIb | 5 => .rmIb false .shrEvIb | 6 => .refused "group 2 /6" | _ => .rmIb false .sarEvIb)
  | 0xC2 => .iw .retIw
  | 0xC3 => .plain .ret
  | 0xC4 => .refused "LES"
  | 0xC5 => .refused "LDS"
  | 0xC6 => .modrm fun reg _ _ => (match reg.toNat with | 0 => .rmIb false .movEbIb | _ => .invalid (.rmIb false .movEbIb))
  | 0xC7 => .modrm fun reg _ _ => (match reg.toNat with | 0 => .rmIv false .movEvIv | _ => .invalid (.rmIv false .movEvIv))
  | 0xC8 => .refused "ENTER"
  | 0xC9 => .refused "LEAVE"
  | 0xCA => .refused "far RET"
  | 0xCB => .refused "far RET"
  | 0xCC => .plain .int3
  | 0xCD => .ib .intIb
  | 0xCE => .refused "INTO"
  | 0xCF => .plain .iret
  | 0xD0 => .modrm fun reg _ _ => (match reg.toNat with | 0 => .rm false .rolEb1 | 1 => .rm false .rorEb1 | 2 => .refused "RCL" | 3 => .refused "RCR" | 4 => .rm false .shlEb1 | 5 => .rm false .shrEb1 | 6 => .refused "group 2 /6" | _ => .rm false .sarEb1)
  | 0xD1 => .modrm fun reg _ _ => (match reg.toNat with | 0 => .rm false .rolEv1 | 1 => .rm false .rorEv1 | 2 => .refused "RCL" | 3 => .refused "RCR" | 4 => .rm false .shlEv1 | 5 => .rm false .shrEv1 | 6 => .refused "group 2 /6" | _ => .rm false .sarEv1)
  | 0xD2 => .modrm fun reg _ _ => (match reg.toNat with | 0 => .rm false .rolEbCl | 1 => .rm false .rorEbCl | 2 => .refused "RCL" | 3 => .refused "RCR" | 4 => .rm false .shlEbCl | 5 => .rm false .shrEbCl | 6 => .refused "group 2 /6" | _ => .rm false .sarEbCl)
  | 0xD3 => .modrm fun reg _ _ => (match reg.toNat with | 0 => .rm false .rolEvCl | 1 => .rm false .rorEvCl | 2 => .refused "RCL" | 3 => .refused "RCR" | 4 => .rm false .shlEvCl | 5 => .rm false .shrEvCl | 6 => .refused "group 2 /6" | _ => .rm false .sarEvCl)
  | 0xD4 => .refused "AAM"
  | 0xD5 => .refused "AAD"
  | 0xD6 => .refused "opcode D6"
  | 0xD7 => .refused "XLAT"
  | 0xD8 => .modrm fun reg isMem rm => if isMem then (match reg.toNat with | 0 => .mem false .faddM32 | 1 => .mem false .fmulM32 | 2 => .mem false .fcomM32 | 3 => .mem false .fcompM32 | 4 => .mem false .fsubM32 | 5 => .mem false .fsubrM32 | _ => .refused "x87 outside Table 4-3") else (match reg.toNat with | 0 => .bare fun p => .faddStSti p rm | 1 => .bare fun p => .fmulStSti p rm | 2 => .bare fun p => .fcomSti p rm | 3 => .bare fun p => .fcompSti p rm | 4 => .bare fun p => .fsubStSti p rm | 5 => .bare fun p => .fsubrStSti p rm | _ => .refused "x87 outside Table 4-3")
  | 0xD9 => .modrm fun reg isMem rm => if isMem then (match reg.toNat with | 0 => .mem false .fldM32 | 2 => .mem false .fstM32 | 3 => .mem false .fstpM32 | _ => .refused "x87 outside Table 4-3") else (match reg.toNat with | 0 => .bare fun p => .fldSti p rm | 1 => .bare fun p => .fxchSti p rm | 2 => (match rm.toNat with | 0 => .bare .fnop | _ => .refused "x87 outside Table 4-3") | 4 => (match rm.toNat with | 0 => .bare .fchs | 1 => .bare .fabs | 4 => .bare .ftst | 5 => .bare .fxam | _ => .refused "x87 outside Table 4-3") | 6 => (match rm.toNat with | 4 => .bare .fxtract | 6 => .bare .fdecstp | _ => .refused "x87 outside Table 4-3") | 7 => (match rm.toNat with | 4 => .bare .frndint | 5 => .bare .fscale | _ => .refused "x87 outside Table 4-3") | _ => .refused "x87 outside Table 4-3")
  | 0xDA => .modrm fun reg isMem rm => if isMem then (match reg.toNat with | 0 => .mem false .fiaddM32 | 1 => .mem false .fimulM32 | 2 => .mem false .ficomM32 | 3 => .mem false .ficompM32 | 4 => .mem false .fisubM32 | 5 => .mem false .fisubrM32 | _ => .refused "x87 outside Table 4-3") else (match reg.toNat with | 5 => (match rm.toNat with | 1 => .bare .fucompp | _ => .refused "x87 outside Table 4-3") | _ => .refused "x87 outside Table 4-3")
  | 0xDB => .modrm fun reg isMem _ => if isMem then (match reg.toNat with | 0 => .mem false .fildM32 | 2 => .mem false .fistM32 | 3 => .mem false .fistpM32 | 5 => .mem false .fldM80 | 7 => .mem false .fstpM80 | _ => .refused "x87 outside Table 4-3") else .refused "x87 outside Table 4-3"
  | 0xDC => .modrm fun reg isMem rm => if isMem then (match reg.toNat with | 0 => .mem false .faddM64 | 1 => .mem false .fmulM64 | 2 => .mem false .fcomM64 | 3 => .mem false .fcompM64 | 4 => .mem false .fsubM64 | 5 => .mem false .fsubrM64 | _ => .refused "x87 outside Table 4-3") else (match reg.toNat with | 0 => .bare fun p => .faddStiSt p rm | 1 => .bare fun p => .fmulStiSt p rm | 4 => .bare fun p => .fsubrStiSt p rm | 5 => .bare fun p => .fsubStiSt p rm | _ => .refused "x87 outside Table 4-3")
  | 0xDD => .modrm fun reg isMem rm => if isMem then (match reg.toNat with | 0 => .mem false .fldM64 | 2 => .mem false .fstM64 | 3 => .mem false .fstpM64 | _ => .refused "x87 outside Table 4-3") else (match reg.toNat with | 2 => .bare fun p => .fstSti p rm | 3 => .bare fun p => .fstpSti p rm | 4 => .bare fun p => .fucomSti p rm | 5 => .bare fun p => .fucompSti p rm | _ => .refused "x87 outside Table 4-3")
  | 0xDE => .modrm fun reg isMem rm => if isMem then (match reg.toNat with | 0 => .mem false .fiaddM16 | 1 => .mem false .fimulM16 | 2 => .mem false .ficomM16 | 3 => .mem false .ficompM16 | 4 => .mem false .fisubM16 | 5 => .mem false .fisubrM16 | _ => .refused "x87 outside Table 4-3") else (match reg.toNat with | 0 => .bare fun p => .faddpStiSt p rm | 1 => .bare fun p => .fmulpStiSt p rm | 3 => (match rm.toNat with | 1 => .bare .fcompp | _ => .refused "x87 outside Table 4-3") | 4 => .bare fun p => .fsubrpStiSt p rm | 5 => .bare fun p => .fsubpStiSt p rm | _ => .refused "x87 outside Table 4-3")
  | 0xDF => .modrm fun reg isMem _ => if isMem then (match reg.toNat with | 0 => .mem false .fildM16 | 2 => .mem false .fistM16 | 3 => .mem false .fistpM16 | 5 => .mem false .fildM64 | 7 => .mem false .fistpM64 | _ => .refused "x87 outside Table 4-3") else .refused "x87 outside Table 4-3"
  | 0xE0 => .ib .loopneRel8
  | 0xE1 => .ib .loopeRel8
  | 0xE2 => .ib .loopRel8
  | 0xE3 => .ib .jcxzRel8
  | 0xE4 => .ib .inAlIb
  | 0xE5 => .ib .inEaxIb
  | 0xE6 => .ib .outIbAl
  | 0xE7 => .ib .outIbEax
  | 0xE8 => .iv .callRelv
  | 0xE9 => .iv .jmpRelv
  | 0xEA => .ptr .jmpPtr
  | 0xEB => .ib .jmpRel8
  | 0xEC => .plain .inAlDx
  | 0xED => .plain .inEaxDx
  | 0xEE => .plain .outDxAl
  | 0xEF => .plain .outDxEax
  | 0xF1 => .refused "opcode F1"
  | 0xF2 => .refused "REPNE"
  | 0xF3 => .refused "REP"
  | 0xF4 => .plain .hlt
  | 0xF5 => .refused "CMC"
  | 0xF6 => .modrm fun reg _ _ => (match reg.toNat with | 0 => .rmIb false .testEbIb | 1 => .refused "group 3 /1" | 2 => .rm true .notEb | 3 => .rm true .negEb | 4 => .rm false .mulEb | 5 => .rm false .imulEb | 6 => .rm false .divEb | _ => .rm false .idivEb)
  | 0xF7 => .modrm fun reg _ _ => (match reg.toNat with | 0 => .rmIv false .testEvIv | 1 => .refused "group 3 /1" | 2 => .rm true .notEv | 3 => .rm true .negEv | 4 => .rm false .mulEv | 5 => .rm false .imulEv | 6 => .rm false .divEv | _ => .rm false .idivEv)
  | 0xF8 => .refused "CLC"
  | 0xF9 => .refused "STC"
  | 0xFA => .plain .cli
  | 0xFB => .plain .sti
  | 0xFC => .refused "CLD"
  | 0xFD => .refused "STD"
  | 0xFE => .modrm fun reg _ _ => (match reg.toNat with | 0 => .rm true .incEb | 1 => .rm true .decEb | _ => .invalid (.rm true .decEb))
  | 0xFF => .modrm fun reg _ _ => (match reg.toNat with | 0 => .rm true .incEv | 1 => .rm true .decEv | 2 => .rm false .callEv | 3 => .refused "far CALL" | 4 => .rm false .jmpEv | 5 => .mem false .jmpMp | 6 => .rm false .pushEv | _ => .invalid (.rm false .pushEv))
  | _ => .ud

/-- The two-byte opcode map, by the byte after 0Fh (R271, R272, R278). DESIGN CHOICE (log 42): SLDT, STR, VERR and VERW are refused in
every mode (R7, R278, D2), though the last sentence of R272 has every group-6 instruction raise UD outside Protected mode. -/
def twoByte (b : Nat) : Entry :=
  match b with
  | 0x00 => .modrm fun reg _ _ => (match reg.toNat with | 0 => .refused "SLDT" | 1 => .refused "STR" | 2 => .rm false .lldtEw | 3 => .rm false .ltrEw | 4 => .refused "VERR" | 5 => .refused "VERW" | _ => .invalid (.rm false .ltrEw))
  | 0x01 => .modrm fun reg _ _ => (match reg.toNat with | 0 => .refused "SGDT" | 1 => .refused "SIDT" | 2 => .mem false .lgdtMs | 3 => .mem false .lidtMs | 4 => .refused "SMSW" | 6 => .refused "LMSW" | 7 => .mem false .invlpgM | _ => .invalid (.mem false .invlpgM))
  | 0x02 => .refused "LAR"
  | 0x03 => .refused "LSL"
  | 0x05 => .refused "opcode 0F 05"
  | 0x06 => .refused "CLTS"
  | 0x07 => .refused "opcode 0F 07"
  | 0x08 => .plain .invd
  | 0x09 => .plain .wbinvd
  | 0x20 => .modrm fun reg _ rm => (match reg.toNat with | 0 => .bare fun p => .movRCr0 p (Reg.ofBits rm) | 2 => .bare fun p => .movRCr2 p (Reg.ofBits rm) | 3 => .bare fun p => .movRCr3 p (Reg.ofBits rm) | 4 => .bare fun p => .movRCr4 p (Reg.ofBits rm) | _ => .ud)
  | 0x21 => .modrm fun reg _ rm => .bare fun p => .movRDr p (Reg.ofBits rm) reg
  | 0x22 => .modrm fun reg _ rm => (match reg.toNat with | 0 => .bare fun p => .movCr0R p (Reg.ofBits rm) | 2 => .bare fun p => .movCr2R p (Reg.ofBits rm) | 3 => .bare fun p => .movCr3R p (Reg.ofBits rm) | 4 => .bare fun p => .movCr4R p (Reg.ofBits rm) | _ => .ud)
  | 0x23 => .modrm fun reg _ rm => .bare fun p => .movDrR p reg (Reg.ofBits rm)
  | 0x30 => .plain .wrmsr
  | 0x31 => .plain .rdtsc
  | 0x32 => .plain .rdmsr
  | 0x80 => .iv fun p i => .jccRelv p .o i
  | 0x81 => .iv fun p i => .jccRelv p .no i
  | 0x82 => .iv fun p i => .jccRelv p .b i
  | 0x83 => .iv fun p i => .jccRelv p .ae i
  | 0x84 => .iv fun p i => .jccRelv p .e i
  | 0x85 => .iv fun p i => .jccRelv p .ne i
  | 0x86 => .iv fun p i => .jccRelv p .be i
  | 0x87 => .iv fun p i => .jccRelv p .a i
  | 0x88 => .iv fun p i => .jccRelv p .s i
  | 0x89 => .iv fun p i => .jccRelv p .ns i
  | 0x8A => .iv fun p i => .jccRelv p .p i
  | 0x8B => .iv fun p i => .jccRelv p .np i
  | 0x8C => .iv fun p i => .jccRelv p .l i
  | 0x8D => .iv fun p i => .jccRelv p .ge i
  | 0x8E => .iv fun p i => .jccRelv p .le i
  | 0x8F => .iv fun p i => .jccRelv p .g i
  | 0x90 => .modrm fun _ _ _ => .rm false fun p x => .setccEb p .o x
  | 0x91 => .modrm fun _ _ _ => .rm false fun p x => .setccEb p .no x
  | 0x92 => .modrm fun _ _ _ => .rm false fun p x => .setccEb p .b x
  | 0x93 => .modrm fun _ _ _ => .rm false fun p x => .setccEb p .ae x
  | 0x94 => .modrm fun _ _ _ => .rm false fun p x => .setccEb p .e x
  | 0x95 => .modrm fun _ _ _ => .rm false fun p x => .setccEb p .ne x
  | 0x96 => .modrm fun _ _ _ => .rm false fun p x => .setccEb p .be x
  | 0x97 => .modrm fun _ _ _ => .rm false fun p x => .setccEb p .a x
  | 0x98 => .modrm fun _ _ _ => .rm false fun p x => .setccEb p .s x
  | 0x99 => .modrm fun _ _ _ => .rm false fun p x => .setccEb p .ns x
  | 0x9A => .modrm fun _ _ _ => .rm false fun p x => .setccEb p .p x
  | 0x9B => .modrm fun _ _ _ => .rm false fun p x => .setccEb p .np x
  | 0x9C => .modrm fun _ _ _ => .rm false fun p x => .setccEb p .l x
  | 0x9D => .modrm fun _ _ _ => .rm false fun p x => .setccEb p .ge x
  | 0x9E => .modrm fun _ _ _ => .rm false fun p x => .setccEb p .le x
  | 0x9F => .modrm fun _ _ _ => .rm false fun p x => .setccEb p .g x
  | 0xA0 => .refused "PUSH FS"
  | 0xA1 => .refused "POP FS"
  | 0xA2 => .plain .cpuid
  | 0xA3 => .modrm fun reg _ _ => .rm true fun p x => .btEvGv p x (Reg.ofBits reg)
  | 0xA4 => .modrm fun reg _ _ => .rmIb false fun p x i => .shldEvGvIb p x (Reg.ofBits reg) i
  | 0xA5 => .modrm fun reg _ _ => .rm false fun p x => .shldEvGvCl p x (Reg.ofBits reg)
  | 0xA8 => .refused "PUSH GS"
  | 0xA9 => .refused "POP GS"
  | 0xAA => .plain .rsm
  | 0xAB => .modrm fun reg _ _ => .rm true fun p x => .btsEvGv p x (Reg.ofBits reg)
  | 0xAC => .modrm fun reg _ _ => .rmIb false fun p x i => .shrdEvGvIb p x (Reg.ofBits reg) i
  | 0xAD => .modrm fun reg _ _ => .rm false fun p x => .shrdEvGvCl p x (Reg.ofBits reg)
  | 0xAF => .modrm fun reg _ _ => .rm false fun p x => .imulGvEv p (Reg.ofBits reg) x
  | 0xB0 => .refused "CMPXCHG"
  | 0xB1 => .refused "CMPXCHG"
  | 0xB2 => .refused "LSS"
  | 0xB3 => .modrm fun reg _ _ => .rm true fun p x => .btrEvGv p x (Reg.ofBits reg)
  | 0xB4 => .refused "LFS"
  | 0xB5 => .refused "LGS"
  | 0xB6 => .modrm fun reg _ _ => .rm false fun p x => .movzxGvEb p (Reg.ofBits reg) x
  | 0xB7 => .modrm fun reg _ _ => .rm false fun p x => .movzxGvEw p (Reg.ofBits reg) x
  | 0xBA => .modrm fun reg _ _ => (match reg.toNat with | 4 => .rmIb true .btEvIb | 5 => .rmIb true .btsEvIb | 6 => .rmIb true .btrEvIb | 7 => .rmIb true .btcEvIb | _ => .invalid (.rmIb true .btcEvIb))
  | 0xBB => .modrm fun reg _ _ => .rm true fun p x => .btcEvGv p x (Reg.ofBits reg)
  | 0xBC => .modrm fun reg _ _ => .rm false fun p x => .bsfGvEv p (Reg.ofBits reg) x
  | 0xBD => .modrm fun reg _ _ => .rm false fun p x => .bsrGvEv p (Reg.ofBits reg) x
  | 0xBE => .modrm fun reg _ _ => .rm false fun p x => .movsxGvEb p (Reg.ofBits reg) x
  | 0xBF => .modrm fun reg _ _ => .rm false fun p x => .movsxGvEw p (Reg.ofBits reg) x
  | 0xC0 => .refused "XADD"
  | 0xC1 => .refused "XADD"
  | 0xC7 => .modrm fun reg _ _ => (match reg.toNat with | 1 => .mem true .cmpxchg8bMq | _ => .invalid (.mem true .cmpxchg8bMq))
  | 0xC8 => .plain fun p => .bswapR p .eax
  | 0xC9 => .plain fun p => .bswapR p .ecx
  | 0xCA => .plain fun p => .bswapR p .edx
  | 0xCB => .plain fun p => .bswapR p .ebx
  | 0xCC => .plain fun p => .bswapR p .esp
  | 0xCD => .plain fun p => .bswapR p .ebp
  | 0xCE => .plain fun p => .bswapR p .esi
  | 0xCF => .plain fun p => .bswapR p .edi
  | 0xFF => .plain .illegal0FFF
  | _ => .ud

/-- LOCK on an instruction that does not accept it is invalid (R277). -/
def lockBad (p : Pfx) (accepted : Bool) : Bool := p.lock && !accepted

/-- What bytes decode to that are invalid already, if `bad`: the instruction still ends where its last byte is (R279, R280). -/
def judge (bad : Bool) (d : Decoded) : Decoded :=
  if bad then
    match d with
    | .ok _ _ => .ud
    | .more => .doomed
    | .doomed => .doomed
    | .ud => .ud
    | .refused s => .refused s
  else d

/-- The operand of a ModRM byte, and what follows it. -/
def runOperand (p : Pfx) (n : Nat) (mod : BitVec 2) (rm : BitVec 3) (bs : List Byte)
    (f : RM → Nat → List Byte → Decoded) : Decoded :=
  if mod = 3 then f (.reg (Reg.ofBits rm)) n bs
  else
    match decodeMem p.asz mod rm bs with
    | none => .more
    | some (m, k, rest) => f (.mem m) (n + k) rest

/-- Finish an opcode whose ModRM byte selected `e`; `n` bytes are behind, ModRM included. DESIGN CHOICE (log 42): an encoding outside
the spec is refused here, before its operand bytes are fetched, so that no fault of theirs comes before the refusal (R278, R280 give no
order). -/
def runMEntry (p : Pfx) (n : Nat) (mod : BitVec 2) (rm : BitVec 3) (bs : List Byte) : MEntry → Decoded
  | .ud => .ud
  | .invalid e => judge true (runMEntry p n mod rm bs e)
  | .refused s => .refused s
  | .bare f => judge (lockBad p false) (.ok (f p) n)
  | .mem lk f =>
    judge (lockBad p lk) (runOperand p n mod rm bs fun x k _ =>
      match x with
      | .reg _ => .ud
      | .mem m => .ok (f p m) k)
  | .rm lk f => judge (lockBad p (lk && mod != 3)) (runOperand p n mod rm bs fun x k _ => .ok (f p x) k)
  | .rmIb lk f =>
    judge (lockBad p (lk && mod != 3)) (runOperand p n mod rm bs fun x k rest =>
      match rest with
      | [] => .more
      | i :: _ => .ok (f p x i) (k + 1))
  | .rmIv lk f =>
    judge (lockBad p (lk && mod != 3)) (runOperand p n mod rm bs fun x k rest =>
      match takeLe p.osz.bytes rest with
      | none => .more
      | some (v, _) => .ok (f p x (BitVec.ofNat 32 v)) (k + p.osz.bytes))

/-- With LOCK the selected form is invalid, whatever follows the ModRM byte (R277). -/
def MEntry.lockUd (memory : Bool) : MEntry → Bool
  | .ud => true
  | .invalid _ => true
  | .refused _ => false
  | .bare _ => true
  | .mem lk _ => !(memory && lk)
  | .rm lk _ => !(memory && lk)
  | .rmIb lk _ => !(memory && lk)
  | .rmIv lk _ => !(memory && lk)

/-- No ModRM byte makes the opcode valid with LOCK: the opcode alone decides (R279, R606). -/
def neverLocked (sel : BitVec 3 → Bool → BitVec 3 → MEntry) : Bool :=
  (List.range 8).all fun r => (List.range 8).all fun m =>
    (sel (BitVec.ofNat 3 r) true (BitVec.ofNat 3 m)).lockUd true
      && (sel (BitVec.ofNat 3 r) false (BitVec.ofNat 3 m)).lockUd false

/-- Finish an opcode; `n` bytes are behind, the opcode included. -/
def runEntry (p : Pfx) (n : Nat) (bs : List Byte) : Entry → Decoded
  | .ud => .ud
  | .refused s => .refused s
  | .plain f => judge (lockBad p false) (.ok (f p) n)
  | .ib f =>
    judge (lockBad p false) (match bs with
      | [] => .more
      | i :: _ => .ok (f p i) (n + 1))
  | .iw f =>
    judge (lockBad p false) (match takeLe 2 bs with
      | none => .more
      | some (v, _) => .ok (f p (BitVec.ofNat 16 v)) (n + 2))
  | .iv f =>
    judge (lockBad p false) (match takeLe p.osz.bytes bs with
      | none => .more
      | some (v, _) => .ok (f p (BitVec.ofNat 32 v)) (n + p.osz.bytes))
  | .moffs f =>
    judge (lockBad p false) (match takeLe p.asz.bytes bs with
      | none => .more
      | some (v, _) => .ok (f p (BitVec.ofNat 32 v)) (n + p.asz.bytes))
  | .ptr f =>
    judge (lockBad p false) (match takeLe p.osz.bytes bs with
      | none => .more
      | some (v, rest) =>
        match takeLe 2 rest with
        | none => .more
        | some (c, _) => .ok (f p (BitVec.ofNat 32 v) (BitVec.ofNat 16 c)) (n + p.osz.bytes + 2))
  | .modrm sel =>
    match bs with
    | [] => judge (p.lock && neverLocked sel) .more
    | m :: rest =>
      let mod : BitVec 2 := m.extractLsb' 6 2
      let rm : BitVec 3 := m.extractLsb' 0 3
      runMEntry p (n + 1) mod rm rest (sel (m.extractLsb' 3 3) (mod != 3) rm)

/-- The opcode byte `b`, with `n` prefix bytes behind it. -/
def decodeOpcode (p : Pfx) (n : Nat) (b : Byte) (bs : List Byte) : Decoded :=
  if b = 0x0F then
    match bs with
    | [] => .more
    | b2 :: rest => runEntry p (n + 2) rest (twoByte b2.toNat)
  else runEntry p (n + 1) bs (oneByte b.toNat)

/-- The other size. -/
def OSz.flip : OSz → OSz
  | .o16 => .o32
  | .o32 => .o16

/-- The default operand and address size of a code segment's D bit (R262). -/
def defaultSize (d32 : Bool) : OSz := if d32 then .o32 else .o16

/-- The segment register of an override byte (R261). -/
def overrideSeg (b : Nat) : Option Seg :=
  match b with
  | 0x26 => some .es | 0x2E => some .cs | 0x36 => some .ss | 0x3E => some .ds | 0x64 => some .fs
  | 0x65 => some .gs | _ => none

/-- The override byte of a segment register (R261). -/
def Seg.override : Seg → Byte
  | .es => 0x26 | .cs => 0x2E | .ss => 0x36 | .ds => 0x3E | .fs => 0x64 | .gs => 0x65

/-- The attributes with another operand size. -/
def Pfx.withOsz (p : Pfx) (o : OSz) : Pfx := { p with osz := o }
/-- The attributes with another address size. -/
def Pfx.withAsz (p : Pfx) (o : OSz) : Pfx := { p with asz := o }
/-- The attributes with LOCK. -/
def Pfx.withLock (p : Pfx) : Pfx := { p with lock := true }
/-- The attributes with a segment override. -/
def Pfx.withSeg (p : Pfx) (s : Seg) : Pfx := { p with seg := some s }

/-- Read the prefix bytes, then the opcode (R260, R261). Two 66 or two 67 bytes act as one, the last segment
override wins, and an instruction with F2 or F3 is refused. -/
def decodeFrom (d32 : Bool) : Pfx → Nat → List Byte → Decoded
  | _, _, [] => .more
  | p, n, b :: bs =>
    if b = 0x66 then decodeFrom d32 (p.withOsz (defaultSize d32).flip) (n + 1) bs
    else if b = 0x67 then decodeFrom d32 (p.withAsz (defaultSize d32).flip) (n + 1) bs
    else if b = 0xF0 then decodeFrom d32 p.withLock (n + 1) bs
    else
      match overrideSeg b.toNat with
      | some sg => decodeFrom d32 (p.withSeg sg) (n + 1) bs
      | none => decodeOpcode p n b bs

/-- The attributes of an instruction without prefixes. -/
def Pfx.base (d32 : Bool) : Pfx :=
  { lock := false, seg := none, osz := defaultSize d32, asz := defaultSize d32 }

/-- What a byte string decodes to, in a code segment with D bit `d32`. -/
def decode (d32 : Bool) (bs : List Byte) : Decoded := decodeFrom d32 (Pfx.base d32) 0 bs

end

/-! ### The encoder -/

/-- The prefix bytes of an instruction's attributes in a code segment with D bit `d32` (R261, R262). -/
def encodePfx (d32 : Bool) (p : Pfx) : List Byte :=
  (if p.lock then [0xF0] else [])
    ++ (match p.seg with | none => [] | some s => [s.override])
    ++ (if p.osz = defaultSize d32 then [] else [0x66])
    ++ (if p.asz = defaultSize d32 then [] else [0x67])

/-- A ModRM byte, or a SIB byte, from its three fields (R264, R266). -/
def fields (hi : BitVec 2) (mid lo : BitVec 3) : Byte := hi ++ mid ++ lo

/-- ModRM, SIB and displacement of a memory operand; the displacement is always written in full. -/
def encodeMem (reg : BitVec 3) : MemOp → List Byte
  | .m16 .abs d => fields 0 reg 6 :: giveLe 2 d.toNat
  | .m16 b d => fields 2 reg b.toBits :: giveLe 2 d.toNat
  | .m32 none none d => fields 0 reg 5 :: giveLe 4 d.toNat
  | .m32 none (some (i, sc)) d => fields 0 reg 4 :: fields sc i.toBits 5 :: giveLe 4 d.toNat
  | .m32 (some b) none d =>
    if b = .esp then fields 2 reg 4 :: fields 0 4 b.toBits :: giveLe 4 d.toNat
    else fields 2 reg b.toBits :: giveLe 4 d.toNat
  | .m32 (some b) (some (i, sc)) d => fields 2 reg 4 :: fields sc i.toBits b.toBits :: giveLe 4 d.toNat

/-- ModRM, SIB and displacement of an r/m operand. -/
def encodeRM (reg : BitVec 3) : RM → List Byte
  | .reg r => [fields 3 reg r.toBits]
  | .mem m => encodeMem reg m

/-- An immediate of an attribute's size (R269). -/
def encodeImm (o : OSz) (v : Word) : List Byte := giveLe o.bytes v.toNat

/-- An opcode byte with a register number in its low three bits (R263). -/
def opReg (op : Byte) (r : BitVec 3) : Byte := op + r.setWidth 8

/-- An opcode byte with a condition code in its low four bits (R274). -/
def opCond (op : Byte) (c : Cond) : Byte := op + BitVec.ofNat 8 c.toNibble

/-- Two byte strings in order. -/
def cat (a b : List Byte) : List Byte := a ++ b

/-- Opcode, operands and immediate of an instruction. -/
def encodeBody : Instr → List Byte
  | .fabs _ => 0xD9 :: 0xE1 :: []
  | .fchs _ => 0xD9 :: 0xE0 :: []
  | .fcompp _ => 0xDE :: 0xD9 :: []
  | .fdecstp _ => 0xD9 :: 0xF6 :: []
  | .fnop _ => 0xD9 :: 0xD0 :: []
  | .frndint _ => 0xD9 :: 0xFC :: []
  | .fscale _ => 0xD9 :: 0xFD :: []
  | .ftst _ => 0xD9 :: 0xE4 :: []
  | .fucompp _ => 0xDA :: 0xE9 :: []
  | .fxam _ => 0xD9 :: 0xE5 :: []
  | .fxtract _ => 0xD9 :: 0xF4 :: []
  | .faddStSti _ i => 0xD8 :: opReg 0xC0 i :: []
  | .faddStiSt _ i => 0xDC :: opReg 0xC0 i :: []
  | .faddpStiSt _ i => 0xDE :: opReg 0xC0 i :: []
  | .fcomSti _ i => 0xD8 :: opReg 0xD0 i :: []
  | .fcompSti _ i => 0xD8 :: opReg 0xD8 i :: []
  | .fldSti _ i => 0xD9 :: opReg 0xC0 i :: []
  | .fmulStSti _ i => 0xD8 :: opReg 0xC8 i :: []
  | .fmulStiSt _ i => 0xDC :: opReg 0xC8 i :: []
  | .fmulpStiSt _ i => 0xDE :: opReg 0xC8 i :: []
  | .fstSti _ i => 0xDD :: opReg 0xD0 i :: []
  | .fstpSti _ i => 0xDD :: opReg 0xD8 i :: []
  | .fsubStSti _ i => 0xD8 :: opReg 0xE0 i :: []
  | .fsubStiSt _ i => 0xDC :: opReg 0xE8 i :: []
  | .fsubpStiSt _ i => 0xDE :: opReg 0xE8 i :: []
  | .fsubrStSti _ i => 0xD8 :: opReg 0xE8 i :: []
  | .fsubrStiSt _ i => 0xDC :: opReg 0xE0 i :: []
  | .fsubrpStiSt _ i => 0xDE :: opReg 0xE0 i :: []
  | .fucomSti _ i => 0xDD :: opReg 0xE0 i :: []
  | .fucompSti _ i => 0xDD :: opReg 0xE8 i :: []
  | .fxchSti _ i => 0xD9 :: opReg 0xC8 i :: []
  | .addEbIb _ rm imm => 0x80 :: cat (encodeRM 0 rm) ([imm])
  | .addEvIv p rm imm => 0x81 :: cat (encodeRM 0 rm) (encodeImm p.osz imm)
  | .addEvIbs _ rm imm => 0x83 :: cat (encodeRM 0 rm) ([imm])
  | .orEbIb _ rm imm => 0x80 :: cat (encodeRM 1 rm) ([imm])
  | .orEvIv p rm imm => 0x81 :: cat (encodeRM 1 rm) (encodeImm p.osz imm)
  | .orEvIbs _ rm imm => 0x83 :: cat (encodeRM 1 rm) ([imm])
  | .adcEbIb _ rm imm => 0x80 :: cat (encodeRM 2 rm) ([imm])
  | .adcEvIv p rm imm => 0x81 :: cat (encodeRM 2 rm) (encodeImm p.osz imm)
  | .adcEvIbs _ rm imm => 0x83 :: cat (encodeRM 2 rm) ([imm])
  | .sbbEbIb _ rm imm => 0x80 :: cat (encodeRM 3 rm) ([imm])
  | .sbbEvIv p rm imm => 0x81 :: cat (encodeRM 3 rm) (encodeImm p.osz imm)
  | .sbbEvIbs _ rm imm => 0x83 :: cat (encodeRM 3 rm) ([imm])
  | .andEbIb _ rm imm => 0x80 :: cat (encodeRM 4 rm) ([imm])
  | .andEvIv p rm imm => 0x81 :: cat (encodeRM 4 rm) (encodeImm p.osz imm)
  | .andEvIbs _ rm imm => 0x83 :: cat (encodeRM 4 rm) ([imm])
  | .subEbIb _ rm imm => 0x80 :: cat (encodeRM 5 rm) ([imm])
  | .subEvIv p rm imm => 0x81 :: cat (encodeRM 5 rm) (encodeImm p.osz imm)
  | .subEvIbs _ rm imm => 0x83 :: cat (encodeRM 5 rm) ([imm])
  | .xorEbIb _ rm imm => 0x80 :: cat (encodeRM 6 rm) ([imm])
  | .xorEvIv p rm imm => 0x81 :: cat (encodeRM 6 rm) (encodeImm p.osz imm)
  | .xorEvIbs _ rm imm => 0x83 :: cat (encodeRM 6 rm) ([imm])
  | .cmpEbIb _ rm imm => 0x80 :: cat (encodeRM 7 rm) ([imm])
  | .cmpEvIv p rm imm => 0x81 :: cat (encodeRM 7 rm) (encodeImm p.osz imm)
  | .cmpEvIbs _ rm imm => 0x83 :: cat (encodeRM 7 rm) ([imm])
  | .popEv _ rm => 0x8F :: encodeRM 0 rm
  | .rolEbIb _ rm imm => 0xC0 :: cat (encodeRM 0 rm) ([imm])
  | .rolEvIb _ rm imm => 0xC1 :: cat (encodeRM 0 rm) ([imm])
  | .rolEb1 _ rm => 0xD0 :: encodeRM 0 rm
  | .rolEv1 _ rm => 0xD1 :: encodeRM 0 rm
  | .rolEbCl _ rm => 0xD2 :: encodeRM 0 rm
  | .rolEvCl _ rm => 0xD3 :: encodeRM 0 rm
  | .rorEbIb _ rm imm => 0xC0 :: cat (encodeRM 1 rm) ([imm])
  | .rorEvIb _ rm imm => 0xC1 :: cat (encodeRM 1 rm) ([imm])
  | .rorEb1 _ rm => 0xD0 :: encodeRM 1 rm
  | .rorEv1 _ rm => 0xD1 :: encodeRM 1 rm
  | .rorEbCl _ rm => 0xD2 :: encodeRM 1 rm
  | .rorEvCl _ rm => 0xD3 :: encodeRM 1 rm
  | .shlEbIb _ rm imm => 0xC0 :: cat (encodeRM 4 rm) ([imm])
  | .shlEvIb _ rm imm => 0xC1 :: cat (encodeRM 4 rm) ([imm])
  | .shlEb1 _ rm => 0xD0 :: encodeRM 4 rm
  | .shlEv1 _ rm => 0xD1 :: encodeRM 4 rm
  | .shlEbCl _ rm => 0xD2 :: encodeRM 4 rm
  | .shlEvCl _ rm => 0xD3 :: encodeRM 4 rm
  | .shrEbIb _ rm imm => 0xC0 :: cat (encodeRM 5 rm) ([imm])
  | .shrEvIb _ rm imm => 0xC1 :: cat (encodeRM 5 rm) ([imm])
  | .shrEb1 _ rm => 0xD0 :: encodeRM 5 rm
  | .shrEv1 _ rm => 0xD1 :: encodeRM 5 rm
  | .shrEbCl _ rm => 0xD2 :: encodeRM 5 rm
  | .shrEvCl _ rm => 0xD3 :: encodeRM 5 rm
  | .sarEbIb _ rm imm => 0xC0 :: cat (encodeRM 7 rm) ([imm])
  | .sarEvIb _ rm imm => 0xC1 :: cat (encodeRM 7 rm) ([imm])
  | .sarEb1 _ rm => 0xD0 :: encodeRM 7 rm
  | .sarEv1 _ rm => 0xD1 :: encodeRM 7 rm
  | .sarEbCl _ rm => 0xD2 :: encodeRM 7 rm
  | .sarEvCl _ rm => 0xD3 :: encodeRM 7 rm
  | .movEbIb _ rm imm => 0xC6 :: cat (encodeRM 0 rm) ([imm])
  | .movEvIv p rm imm => 0xC7 :: cat (encodeRM 0 rm) (encodeImm p.osz imm)
  | .testEbIb _ rm imm => 0xF6 :: cat (encodeRM 0 rm) ([imm])
  | .notEb _ rm => 0xF6 :: encodeRM 2 rm
  | .negEb _ rm => 0xF6 :: encodeRM 3 rm
  | .mulEb _ rm => 0xF6 :: encodeRM 4 rm
  | .imulEb _ rm => 0xF6 :: encodeRM 5 rm
  | .divEb _ rm => 0xF6 :: encodeRM 6 rm
  | .idivEb _ rm => 0xF6 :: encodeRM 7 rm
  | .testEvIv p rm imm => 0xF7 :: cat (encodeRM 0 rm) (encodeImm p.osz imm)
  | .notEv _ rm => 0xF7 :: encodeRM 2 rm
  | .negEv _ rm => 0xF7 :: encodeRM 3 rm
  | .mulEv _ rm => 0xF7 :: encodeRM 4 rm
  | .imulEv _ rm => 0xF7 :: encodeRM 5 rm
  | .divEv _ rm => 0xF7 :: encodeRM 6 rm
  | .idivEv _ rm => 0xF7 :: encodeRM 7 rm
  | .incEb _ rm => 0xFE :: encodeRM 0 rm
  | .decEb _ rm => 0xFE :: encodeRM 1 rm
  | .incEv _ rm => 0xFF :: encodeRM 0 rm
  | .decEv _ rm => 0xFF :: encodeRM 1 rm
  | .callEv _ rm => 0xFF :: encodeRM 2 rm
  | .jmpEv _ rm => 0xFF :: encodeRM 4 rm
  | .jmpMp _ m => 0xFF :: encodeMem 5 m
  | .pushEv _ rm => 0xFF :: encodeRM 6 rm
  | .lldtEw _ rm => 0x0F :: 0x00 :: encodeRM 2 rm
  | .ltrEw _ rm => 0x0F :: 0x00 :: encodeRM 3 rm
  | .lgdtMs _ m => 0x0F :: 0x01 :: encodeMem 2 m
  | .lidtMs _ m => 0x0F :: 0x01 :: encodeMem 3 m
  | .invlpgM _ m => 0x0F :: 0x01 :: encodeMem 7 m
  | .movRCr0 _ r => 0x0F :: 0x20 :: fields 3 0 r.toBits :: []
  | .movRCr2 _ r => 0x0F :: 0x20 :: fields 3 2 r.toBits :: []
  | .movRCr3 _ r => 0x0F :: 0x20 :: fields 3 3 r.toBits :: []
  | .movRCr4 _ r => 0x0F :: 0x20 :: fields 3 4 r.toBits :: []
  | .movCr0R _ r => 0x0F :: 0x22 :: fields 3 0 r.toBits :: []
  | .movCr2R _ r => 0x0F :: 0x22 :: fields 3 2 r.toBits :: []
  | .movCr3R _ r => 0x0F :: 0x22 :: fields 3 3 r.toBits :: []
  | .movCr4R _ r => 0x0F :: 0x22 :: fields 3 4 r.toBits :: []
  | .btEvIb _ rm imm => 0x0F :: 0xBA :: cat (encodeRM 4 rm) ([imm])
  | .btsEvIb _ rm imm => 0x0F :: 0xBA :: cat (encodeRM 5 rm) ([imm])
  | .btrEvIb _ rm imm => 0x0F :: 0xBA :: cat (encodeRM 6 rm) ([imm])
  | .btcEvIb _ rm imm => 0x0F :: 0xBA :: cat (encodeRM 7 rm) ([imm])
  | .cmpxchg8bMq _ m => 0x0F :: 0xC7 :: encodeMem 1 m
  | .faddM32 _ m => 0xD8 :: encodeMem 0 m
  | .faddM64 _ m => 0xDC :: encodeMem 0 m
  | .fcomM32 _ m => 0xD8 :: encodeMem 2 m
  | .fcomM64 _ m => 0xDC :: encodeMem 2 m
  | .fcompM32 _ m => 0xD8 :: encodeMem 3 m
  | .fcompM64 _ m => 0xDC :: encodeMem 3 m
  | .fiaddM16 _ m => 0xDE :: encodeMem 0 m
  | .fiaddM32 _ m => 0xDA :: encodeMem 0 m
  | .ficomM16 _ m => 0xDE :: encodeMem 2 m
  | .ficomM32 _ m => 0xDA :: encodeMem 2 m
  | .ficompM16 _ m => 0xDE :: encodeMem 3 m
  | .ficompM32 _ m => 0xDA :: encodeMem 3 m
  | .fildM16 _ m => 0xDF :: encodeMem 0 m
  | .fildM32 _ m => 0xDB :: encodeMem 0 m
  | .fildM64 _ m => 0xDF :: encodeMem 5 m
  | .fimulM16 _ m => 0xDE :: encodeMem 1 m
  | .fimulM32 _ m => 0xDA :: encodeMem 1 m
  | .fistM16 _ m => 0xDF :: encodeMem 2 m
  | .fistM32 _ m => 0xDB :: encodeMem 2 m
  | .fistpM16 _ m => 0xDF :: encodeMem 3 m
  | .fistpM32 _ m => 0xDB :: encodeMem 3 m
  | .fistpM64 _ m => 0xDF :: encodeMem 7 m
  | .fisubM16 _ m => 0xDE :: encodeMem 4 m
  | .fisubM32 _ m => 0xDA :: encodeMem 4 m
  | .fisubrM16 _ m => 0xDE :: encodeMem 5 m
  | .fisubrM32 _ m => 0xDA :: encodeMem 5 m
  | .fldM32 _ m => 0xD9 :: encodeMem 0 m
  | .fldM64 _ m => 0xDD :: encodeMem 0 m
  | .fldM80 _ m => 0xDB :: encodeMem 5 m
  | .fmulM32 _ m => 0xD8 :: encodeMem 1 m
  | .fmulM64 _ m => 0xDC :: encodeMem 1 m
  | .fstM32 _ m => 0xD9 :: encodeMem 2 m
  | .fstM64 _ m => 0xDD :: encodeMem 2 m
  | .fstpM32 _ m => 0xD9 :: encodeMem 3 m
  | .fstpM64 _ m => 0xDD :: encodeMem 3 m
  | .fstpM80 _ m => 0xDB :: encodeMem 7 m
  | .fsubM32 _ m => 0xD8 :: encodeMem 4 m
  | .fsubM64 _ m => 0xDC :: encodeMem 4 m
  | .fsubrM32 _ m => 0xD8 :: encodeMem 5 m
  | .fsubrM64 _ m => 0xDC :: encodeMem 5 m
  | .addEbGb _ rm g => 0x00 :: encodeRM g.toBits rm
  | .addEvGv _ rm g => 0x01 :: encodeRM g.toBits rm
  | .addGbEb _ g rm => 0x02 :: encodeRM g.toBits rm
  | .addGvEv _ g rm => 0x03 :: encodeRM g.toBits rm
  | .addAlIb _ imm => 0x04 :: [imm]
  | .addEaxIv p imm => 0x05 :: encodeImm p.osz imm
  | .orEbGb _ rm g => 0x08 :: encodeRM g.toBits rm
  | .orEvGv _ rm g => 0x09 :: encodeRM g.toBits rm
  | .orGbEb _ g rm => 0x0A :: encodeRM g.toBits rm
  | .orGvEv _ g rm => 0x0B :: encodeRM g.toBits rm
  | .orAlIb _ imm => 0x0C :: [imm]
  | .orEaxIv p imm => 0x0D :: encodeImm p.osz imm
  | .adcEbGb _ rm g => 0x10 :: encodeRM g.toBits rm
  | .adcEvGv _ rm g => 0x11 :: encodeRM g.toBits rm
  | .adcGbEb _ g rm => 0x12 :: encodeRM g.toBits rm
  | .adcGvEv _ g rm => 0x13 :: encodeRM g.toBits rm
  | .adcAlIb _ imm => 0x14 :: [imm]
  | .adcEaxIv p imm => 0x15 :: encodeImm p.osz imm
  | .sbbEbGb _ rm g => 0x18 :: encodeRM g.toBits rm
  | .sbbEvGv _ rm g => 0x19 :: encodeRM g.toBits rm
  | .sbbGbEb _ g rm => 0x1A :: encodeRM g.toBits rm
  | .sbbGvEv _ g rm => 0x1B :: encodeRM g.toBits rm
  | .sbbAlIb _ imm => 0x1C :: [imm]
  | .sbbEaxIv p imm => 0x1D :: encodeImm p.osz imm
  | .andEbGb _ rm g => 0x20 :: encodeRM g.toBits rm
  | .andEvGv _ rm g => 0x21 :: encodeRM g.toBits rm
  | .andGbEb _ g rm => 0x22 :: encodeRM g.toBits rm
  | .andGvEv _ g rm => 0x23 :: encodeRM g.toBits rm
  | .andAlIb _ imm => 0x24 :: [imm]
  | .andEaxIv p imm => 0x25 :: encodeImm p.osz imm
  | .subEbGb _ rm g => 0x28 :: encodeRM g.toBits rm
  | .subEvGv _ rm g => 0x29 :: encodeRM g.toBits rm
  | .subGbEb _ g rm => 0x2A :: encodeRM g.toBits rm
  | .subGvEv _ g rm => 0x2B :: encodeRM g.toBits rm
  | .subAlIb _ imm => 0x2C :: [imm]
  | .subEaxIv p imm => 0x2D :: encodeImm p.osz imm
  | .xorEbGb _ rm g => 0x30 :: encodeRM g.toBits rm
  | .xorEvGv _ rm g => 0x31 :: encodeRM g.toBits rm
  | .xorGbEb _ g rm => 0x32 :: encodeRM g.toBits rm
  | .xorGvEv _ g rm => 0x33 :: encodeRM g.toBits rm
  | .xorAlIb _ imm => 0x34 :: [imm]
  | .xorEaxIv p imm => 0x35 :: encodeImm p.osz imm
  | .cmpEbGb _ rm g => 0x38 :: encodeRM g.toBits rm
  | .cmpEvGv _ rm g => 0x39 :: encodeRM g.toBits rm
  | .cmpGbEb _ g rm => 0x3A :: encodeRM g.toBits rm
  | .cmpGvEv _ g rm => 0x3B :: encodeRM g.toBits rm
  | .cmpAlIb _ imm => 0x3C :: [imm]
  | .cmpEaxIv p imm => 0x3D :: encodeImm p.osz imm
  | .popSs _ => 0x17 :: []
  | .pushIv p imm => 0x68 :: encodeImm p.osz imm
  | .imulGvEvIv p g rm imm => 0x69 :: cat (encodeRM g.toBits rm) (encodeImm p.osz imm)
  | .pushIbs _ imm => 0x6A :: [imm]
  | .imulGvEvIbs _ g rm imm => 0x6B :: cat (encodeRM g.toBits rm) ([imm])
  | .testEbGb _ rm g => 0x84 :: encodeRM g.toBits rm
  | .testEvGv _ rm g => 0x85 :: encodeRM g.toBits rm
  | .xchgEbGb _ rm g => 0x86 :: encodeRM g.toBits rm
  | .xchgEvGv _ rm g => 0x87 :: encodeRM g.toBits rm
  | .movEbGb _ rm g => 0x88 :: encodeRM g.toBits rm
  | .movEvGv _ rm g => 0x89 :: encodeRM g.toBits rm
  | .movGbEb _ g rm => 0x8A :: encodeRM g.toBits rm
  | .movGvEv _ g rm => 0x8B :: encodeRM g.toBits rm
  | .movEwSreg _ rm sr => 0x8C :: encodeRM sr.toBits rm
  | .leaGvM _ g m => 0x8D :: encodeMem g.toBits m
  | .movSregEw _ sr rm => 0x8E :: encodeRM sr.toBits rm
  | .nop _ => 0x90 :: []
  | .cbw _ => 0x98 :: []
  | .cwd _ => 0x99 :: []
  | .fwait _ => 0x9B :: []
  | .pushf _ => 0x9C :: []
  | .popf _ => 0x9D :: []
  | .movAlMoffs p imm => 0xA0 :: encodeImm p.asz imm
  | .movEaxMoffs p imm => 0xA1 :: encodeImm p.asz imm
  | .movMoffsAl p imm => 0xA2 :: encodeImm p.asz imm
  | .movMoffsEax p imm => 0xA3 :: encodeImm p.asz imm
  | .testAlIb _ imm => 0xA8 :: [imm]
  | .testEaxIv p imm => 0xA9 :: encodeImm p.osz imm
  | .retIw _ imm => 0xC2 :: giveLe 2 imm.toNat
  | .ret _ => 0xC3 :: []
  | .int3 _ => 0xCC :: []
  | .intIb _ imm => 0xCD :: [imm]
  | .iret _ => 0xCF :: []
  | .loopneRel8 _ imm => 0xE0 :: [imm]
  | .loopeRel8 _ imm => 0xE1 :: [imm]
  | .loopRel8 _ imm => 0xE2 :: [imm]
  | .jcxzRel8 _ imm => 0xE3 :: [imm]
  | .inAlIb _ imm => 0xE4 :: [imm]
  | .inEaxIb _ imm => 0xE5 :: [imm]
  | .outIbAl _ imm => 0xE6 :: [imm]
  | .outIbEax _ imm => 0xE7 :: [imm]
  | .callRelv p imm => 0xE8 :: encodeImm p.osz imm
  | .jmpRelv p imm => 0xE9 :: encodeImm p.osz imm
  | .jmpPtr p off sel => 0xEA :: cat (encodeImm p.osz off) (giveLe 2 sel.toNat)
  | .jmpRel8 _ imm => 0xEB :: [imm]
  | .inAlDx _ => 0xEC :: []
  | .inEaxDx _ => 0xED :: []
  | .outDxAl _ => 0xEE :: []
  | .outDxEax _ => 0xEF :: []
  | .hlt _ => 0xF4 :: []
  | .cli _ => 0xFA :: []
  | .sti _ => 0xFB :: []
  | .invd _ => 0x0F :: 0x08 :: []
  | .wbinvd _ => 0x0F :: 0x09 :: []
  | .movRDr _ r n => 0x0F :: 0x21 :: fields 3 n r.toBits :: []
  | .movDrR _ n r => 0x0F :: 0x23 :: fields 3 n r.toBits :: []
  | .wrmsr _ => 0x0F :: 0x30 :: []
  | .rdtsc _ => 0x0F :: 0x31 :: []
  | .rdmsr _ => 0x0F :: 0x32 :: []
  | .cpuid _ => 0x0F :: 0xA2 :: []
  | .btEvGv _ rm g => 0x0F :: 0xA3 :: encodeRM g.toBits rm
  | .shldEvGvIb _ rm g imm => 0x0F :: 0xA4 :: cat (encodeRM g.toBits rm) ([imm])
  | .shldEvGvCl _ rm g => 0x0F :: 0xA5 :: encodeRM g.toBits rm
  | .rsm _ => 0x0F :: 0xAA :: []
  | .btsEvGv _ rm g => 0x0F :: 0xAB :: encodeRM g.toBits rm
  | .shrdEvGvIb _ rm g imm => 0x0F :: 0xAC :: cat (encodeRM g.toBits rm) ([imm])
  | .shrdEvGvCl _ rm g => 0x0F :: 0xAD :: encodeRM g.toBits rm
  | .imulGvEv _ g rm => 0x0F :: 0xAF :: encodeRM g.toBits rm
  | .btrEvGv _ rm g => 0x0F :: 0xB3 :: encodeRM g.toBits rm
  | .movzxGvEb _ g rm => 0x0F :: 0xB6 :: encodeRM g.toBits rm
  | .movzxGvEw _ g rm => 0x0F :: 0xB7 :: encodeRM g.toBits rm
  | .btcEvGv _ rm g => 0x0F :: 0xBB :: encodeRM g.toBits rm
  | .bsfGvEv _ g rm => 0x0F :: 0xBC :: encodeRM g.toBits rm
  | .bsrGvEv _ g rm => 0x0F :: 0xBD :: encodeRM g.toBits rm
  | .movsxGvEb _ g rm => 0x0F :: 0xBE :: encodeRM g.toBits rm
  | .movsxGvEw _ g rm => 0x0F :: 0xBF :: encodeRM g.toBits rm
  | .illegal0FFF _ => 0x0F :: 0xFF :: []
  | .incR _ r => opReg 0x40 r.toBits :: []
  | .decR _ r => opReg 0x48 r.toBits :: []
  | .pushR _ r => opReg 0x50 r.toBits :: []
  | .popR _ r => opReg 0x58 r.toBits :: []
  | .xchgEaxR _ r => opReg 0x90 r.toBits :: []
  | .movR8Ib _ r imm => opReg 0xB0 r.toBits :: [imm]
  | .movRIv p r imm => opReg 0xB8 r.toBits :: encodeImm p.osz imm
  | .bswapR _ r => 0x0F :: opReg 0xC8 r.toBits :: []
  | .jccRel8 _ cc imm => opCond 0x70 cc :: [imm]
  | .jccRelv p cc imm => 0x0F :: opCond 0x80 cc :: encodeImm p.osz imm
  | .setccEb _ cc rm => 0x0F :: opCond 0x90 cc :: encodeRM 0 rm

/-- The attributes of an instruction. -/
def Instr.pfx : Instr → Pfx
  | .fabs p => p
  | .fchs p => p
  | .fcompp p => p
  | .fdecstp p => p
  | .fnop p => p
  | .frndint p => p
  | .fscale p => p
  | .ftst p => p
  | .fucompp p => p
  | .fxam p => p
  | .fxtract p => p
  | .faddStSti p _ => p
  | .faddStiSt p _ => p
  | .faddpStiSt p _ => p
  | .fcomSti p _ => p
  | .fcompSti p _ => p
  | .fldSti p _ => p
  | .fmulStSti p _ => p
  | .fmulStiSt p _ => p
  | .fmulpStiSt p _ => p
  | .fstSti p _ => p
  | .fstpSti p _ => p
  | .fsubStSti p _ => p
  | .fsubStiSt p _ => p
  | .fsubpStiSt p _ => p
  | .fsubrStSti p _ => p
  | .fsubrStiSt p _ => p
  | .fsubrpStiSt p _ => p
  | .fucomSti p _ => p
  | .fucompSti p _ => p
  | .fxchSti p _ => p
  | .addEbIb p _ _ => p
  | .addEvIv p _ _ => p
  | .addEvIbs p _ _ => p
  | .orEbIb p _ _ => p
  | .orEvIv p _ _ => p
  | .orEvIbs p _ _ => p
  | .adcEbIb p _ _ => p
  | .adcEvIv p _ _ => p
  | .adcEvIbs p _ _ => p
  | .sbbEbIb p _ _ => p
  | .sbbEvIv p _ _ => p
  | .sbbEvIbs p _ _ => p
  | .andEbIb p _ _ => p
  | .andEvIv p _ _ => p
  | .andEvIbs p _ _ => p
  | .subEbIb p _ _ => p
  | .subEvIv p _ _ => p
  | .subEvIbs p _ _ => p
  | .xorEbIb p _ _ => p
  | .xorEvIv p _ _ => p
  | .xorEvIbs p _ _ => p
  | .cmpEbIb p _ _ => p
  | .cmpEvIv p _ _ => p
  | .cmpEvIbs p _ _ => p
  | .popEv p _ => p
  | .rolEbIb p _ _ => p
  | .rolEvIb p _ _ => p
  | .rolEb1 p _ => p
  | .rolEv1 p _ => p
  | .rolEbCl p _ => p
  | .rolEvCl p _ => p
  | .rorEbIb p _ _ => p
  | .rorEvIb p _ _ => p
  | .rorEb1 p _ => p
  | .rorEv1 p _ => p
  | .rorEbCl p _ => p
  | .rorEvCl p _ => p
  | .shlEbIb p _ _ => p
  | .shlEvIb p _ _ => p
  | .shlEb1 p _ => p
  | .shlEv1 p _ => p
  | .shlEbCl p _ => p
  | .shlEvCl p _ => p
  | .shrEbIb p _ _ => p
  | .shrEvIb p _ _ => p
  | .shrEb1 p _ => p
  | .shrEv1 p _ => p
  | .shrEbCl p _ => p
  | .shrEvCl p _ => p
  | .sarEbIb p _ _ => p
  | .sarEvIb p _ _ => p
  | .sarEb1 p _ => p
  | .sarEv1 p _ => p
  | .sarEbCl p _ => p
  | .sarEvCl p _ => p
  | .movEbIb p _ _ => p
  | .movEvIv p _ _ => p
  | .testEbIb p _ _ => p
  | .notEb p _ => p
  | .negEb p _ => p
  | .mulEb p _ => p
  | .imulEb p _ => p
  | .divEb p _ => p
  | .idivEb p _ => p
  | .testEvIv p _ _ => p
  | .notEv p _ => p
  | .negEv p _ => p
  | .mulEv p _ => p
  | .imulEv p _ => p
  | .divEv p _ => p
  | .idivEv p _ => p
  | .incEb p _ => p
  | .decEb p _ => p
  | .incEv p _ => p
  | .decEv p _ => p
  | .callEv p _ => p
  | .jmpEv p _ => p
  | .jmpMp p _ => p
  | .pushEv p _ => p
  | .lldtEw p _ => p
  | .ltrEw p _ => p
  | .lgdtMs p _ => p
  | .lidtMs p _ => p
  | .invlpgM p _ => p
  | .movRCr0 p _ => p
  | .movRCr2 p _ => p
  | .movRCr3 p _ => p
  | .movRCr4 p _ => p
  | .movCr0R p _ => p
  | .movCr2R p _ => p
  | .movCr3R p _ => p
  | .movCr4R p _ => p
  | .btEvIb p _ _ => p
  | .btsEvIb p _ _ => p
  | .btrEvIb p _ _ => p
  | .btcEvIb p _ _ => p
  | .cmpxchg8bMq p _ => p
  | .faddM32 p _ => p
  | .faddM64 p _ => p
  | .fcomM32 p _ => p
  | .fcomM64 p _ => p
  | .fcompM32 p _ => p
  | .fcompM64 p _ => p
  | .fiaddM16 p _ => p
  | .fiaddM32 p _ => p
  | .ficomM16 p _ => p
  | .ficomM32 p _ => p
  | .ficompM16 p _ => p
  | .ficompM32 p _ => p
  | .fildM16 p _ => p
  | .fildM32 p _ => p
  | .fildM64 p _ => p
  | .fimulM16 p _ => p
  | .fimulM32 p _ => p
  | .fistM16 p _ => p
  | .fistM32 p _ => p
  | .fistpM16 p _ => p
  | .fistpM32 p _ => p
  | .fistpM64 p _ => p
  | .fisubM16 p _ => p
  | .fisubM32 p _ => p
  | .fisubrM16 p _ => p
  | .fisubrM32 p _ => p
  | .fldM32 p _ => p
  | .fldM64 p _ => p
  | .fldM80 p _ => p
  | .fmulM32 p _ => p
  | .fmulM64 p _ => p
  | .fstM32 p _ => p
  | .fstM64 p _ => p
  | .fstpM32 p _ => p
  | .fstpM64 p _ => p
  | .fstpM80 p _ => p
  | .fsubM32 p _ => p
  | .fsubM64 p _ => p
  | .fsubrM32 p _ => p
  | .fsubrM64 p _ => p
  | .addEbGb p _ _ => p
  | .addEvGv p _ _ => p
  | .addGbEb p _ _ => p
  | .addGvEv p _ _ => p
  | .addAlIb p _ => p
  | .addEaxIv p _ => p
  | .orEbGb p _ _ => p
  | .orEvGv p _ _ => p
  | .orGbEb p _ _ => p
  | .orGvEv p _ _ => p
  | .orAlIb p _ => p
  | .orEaxIv p _ => p
  | .adcEbGb p _ _ => p
  | .adcEvGv p _ _ => p
  | .adcGbEb p _ _ => p
  | .adcGvEv p _ _ => p
  | .adcAlIb p _ => p
  | .adcEaxIv p _ => p
  | .sbbEbGb p _ _ => p
  | .sbbEvGv p _ _ => p
  | .sbbGbEb p _ _ => p
  | .sbbGvEv p _ _ => p
  | .sbbAlIb p _ => p
  | .sbbEaxIv p _ => p
  | .andEbGb p _ _ => p
  | .andEvGv p _ _ => p
  | .andGbEb p _ _ => p
  | .andGvEv p _ _ => p
  | .andAlIb p _ => p
  | .andEaxIv p _ => p
  | .subEbGb p _ _ => p
  | .subEvGv p _ _ => p
  | .subGbEb p _ _ => p
  | .subGvEv p _ _ => p
  | .subAlIb p _ => p
  | .subEaxIv p _ => p
  | .xorEbGb p _ _ => p
  | .xorEvGv p _ _ => p
  | .xorGbEb p _ _ => p
  | .xorGvEv p _ _ => p
  | .xorAlIb p _ => p
  | .xorEaxIv p _ => p
  | .cmpEbGb p _ _ => p
  | .cmpEvGv p _ _ => p
  | .cmpGbEb p _ _ => p
  | .cmpGvEv p _ _ => p
  | .cmpAlIb p _ => p
  | .cmpEaxIv p _ => p
  | .popSs p => p
  | .pushIv p _ => p
  | .imulGvEvIv p _ _ _ => p
  | .pushIbs p _ => p
  | .imulGvEvIbs p _ _ _ => p
  | .testEbGb p _ _ => p
  | .testEvGv p _ _ => p
  | .xchgEbGb p _ _ => p
  | .xchgEvGv p _ _ => p
  | .movEbGb p _ _ => p
  | .movEvGv p _ _ => p
  | .movGbEb p _ _ => p
  | .movGvEv p _ _ => p
  | .movEwSreg p _ _ => p
  | .leaGvM p _ _ => p
  | .movSregEw p _ _ => p
  | .nop p => p
  | .cbw p => p
  | .cwd p => p
  | .fwait p => p
  | .pushf p => p
  | .popf p => p
  | .movAlMoffs p _ => p
  | .movEaxMoffs p _ => p
  | .movMoffsAl p _ => p
  | .movMoffsEax p _ => p
  | .testAlIb p _ => p
  | .testEaxIv p _ => p
  | .retIw p _ => p
  | .ret p => p
  | .int3 p => p
  | .intIb p _ => p
  | .iret p => p
  | .loopneRel8 p _ => p
  | .loopeRel8 p _ => p
  | .loopRel8 p _ => p
  | .jcxzRel8 p _ => p
  | .inAlIb p _ => p
  | .inEaxIb p _ => p
  | .outIbAl p _ => p
  | .outIbEax p _ => p
  | .callRelv p _ => p
  | .jmpRelv p _ => p
  | .jmpPtr p _ _ => p
  | .jmpRel8 p _ => p
  | .inAlDx p => p
  | .inEaxDx p => p
  | .outDxAl p => p
  | .outDxEax p => p
  | .hlt p => p
  | .cli p => p
  | .sti p => p
  | .invd p => p
  | .wbinvd p => p
  | .movRDr p _ _ => p
  | .movDrR p _ _ => p
  | .wrmsr p => p
  | .rdtsc p => p
  | .rdmsr p => p
  | .cpuid p => p
  | .btEvGv p _ _ => p
  | .shldEvGvIb p _ _ _ => p
  | .shldEvGvCl p _ _ => p
  | .rsm p => p
  | .btsEvGv p _ _ => p
  | .shrdEvGvIb p _ _ _ => p
  | .shrdEvGvCl p _ _ => p
  | .imulGvEv p _ _ => p
  | .btrEvGv p _ _ => p
  | .movzxGvEb p _ _ => p
  | .movzxGvEw p _ _ => p
  | .btcEvGv p _ _ => p
  | .bsfGvEv p _ _ => p
  | .bsrGvEv p _ _ => p
  | .movsxGvEb p _ _ => p
  | .movsxGvEw p _ _ => p
  | .illegal0FFF p => p
  | .incR p _ => p
  | .decR p _ => p
  | .pushR p _ => p
  | .popR p _ => p
  | .xchgEaxR p _ => p
  | .movR8Ib p _ _ => p
  | .movRIv p _ _ => p
  | .bswapR p _ => p
  | .jccRel8 p _ _ => p
  | .jccRelv p _ _ => p
  | .setccEb p _ _ => p

/-- The bytes of an instruction in a code segment with D bit `d32`. -/
def encode (d32 : Bool) (i : Instr) : List Byte := encodePfx d32 i.pfx ++ encodeBody i

/-! ### The table's key -/

/-- The bytes of an opcode-table key (R282): map, opcode and ModRM byte, every later byte zero. -/
def tableBytes (nbits w : Nat) : List Byte :=
  if nbits ≤ 16 then giveLe 2 w ++ List.replicate 13 0
  else if w / 65536 % 256 = 0x0F then
    [0x0F, BitVec.ofNat 8 (w / 256), BitVec.ofNat 8 w] ++ List.replicate 12 0
  else [BitVec.ofNat 8 (w / 256), BitVec.ofNat 8 w] ++ List.replicate 13 0

noncomputable section

/-- The instruction the decoder reads from the instruction whose table key is `w`, in a 16-bit code segment as
after reset. -/
def decodeTableWord (nbits w : Nat) : Option Instr :=
  match decode false (tableBytes nbits w) with
  | .ok i _ => some i
  | _ => none

end

end Sys2Proof
end

