-- ==== Sys2Proof/Config.lean ====
section
/-! DEFINITION. What the spec leaves open. The free values are opaque constants without a body: nothing can be
proved of a particular value, so whatever is proved holds for all of them (D3 of 92_eei_decisions, log 2). Every
use applies one of them to `State.draws` and advances that counter, so each draw is a fresh value. -/
namespace Sys2Proof

/-- A free bit: an undefined flag (U1), the choice between two permitted outcomes. -/
opaque Config.freeBit : Nat → Bool

/-- A free value of width `w`: an undefined register, the value of an I/O read, the contents of an array. -/
opaque Config.freeBits : (w : Nat) → Nat → BitVec w

/-- One less than the number of processor clocks the step took: R680 gives only that it is at least one. -/
opaque Config.clocks : Nat → Nat

/-- What a region of physical memory is (R12, R110, D21). -/
inductive RegionKind
  | ram
  /-- Reads as what it holds; a write reaches it and changes nothing. -/
  | rom
  /-- Nothing answers: BRDY# never comes, and the processor is stuck at the access (R200). -/
  | silent
  deriving DecidableEq, Repr

/-- A region of the platform's memory map (R12, R111, D20, D38). What no region covers is cacheable RAM. -/
structure Region where
  /-- First physical address. -/
  lo : Nat
  /-- First physical address behind it. -/
  hi : Nat
  kind : RegionKind
  /-- KEN# is asserted for it. -/
  ken : Bool
  /-- WB/WT# is High for it. -/
  wbwt : Bool
  /-- SMIACT# selects another memory here (R705, D38). -/
  smm : Bool
  deriving DecidableEq, Repr

/-- The parameters of R12 that a run fixes once. They are plain data of the state, which no step changes. -/
structure Platform where
  /-- `STEPPING` (R12, R771). -/
  stepping : BitVec 4
  /-- `MODEL`: 1 for the AMD5K86, 0 for the AMD-SSA5. -/
  model : BitVec 4
  /-- `BIST_RESULT` (R776). -/
  bistResult : BitVec 9
  /-- `TAP_VERSION` (R871). -/
  tapVersion : BitVec 4
  /-- `TAP_BOND` (R871). -/
  tapBond : BitVec 2
  /-- `TAP_PARTNO_LOW` (R871). -/
  tapPartLow : BitVec 8
  /-- `AAR_WAY_LSB` is 28 when true, 30 when false (R844). -/
  aarWay28 : Bool
  /-- `BF`: ratio 1.5 when true, 2 when false (R183); timing only. -/
  bf : Bool
  /-- `BOOT_ALIAS` (R110, R779): the boot ROM appears below 1 Mbyte too. -/
  bootAlias : Bool
  /-- The physical memory map with the answers of KEN# and WB/WT# (R12, D20, D21, D38). -/
  regions : List Region
  deriving DecidableEq, Repr

/-- The parameter values at reset: the defaults of R12, zero (AAR_WAY_LSB 30, BF 1) where R12 gives none, and a memory
map that is RAM throughout (DESIGN CHOICE, log 14). -/
def Platform.default : Platform :=
  { stepping := 0, model := 1, bistResult := 0, tapVersion := 0, tapBond := 0, tapPartLow := 0,
    aarWay28 := false, bf := true, bootAlias := true, regions := [] }

end Sys2Proof
end

