-- ==== Sys2Proof/Machine/State.lean ====
section
/-! DEFINITION. The state of the machine as plain data, what it is after RESET, and why a step can stop.
INVENTORY.md lists every piece with the rule that names it. -/
namespace Sys2Proof.Machine

open Sys2Proof

/-- The eight general registers (R20). -/
structure Gpr where
  eax : Word
  ecx : Word
  edx : Word
  ebx : Word
  esp : Word
  ebp : Word
  esi : Word
  edi : Word
  deriving DecidableEq, Repr

/-- EFLAGS by its named bits (R23); the reserved bits have fixed values and no storage. -/
structure Flags where
  cf : Bool
  pf : Bool
  af : Bool
  zf : Bool
  sf : Bool
  tf : Bool
  ifl : Bool
  df : Bool
  of : Bool
  iopl : BitVec 2
  nt : Bool
  rf : Bool
  vm : Bool
  ac : Bool
  vif : Bool
  vip : Bool
  id : Bool
  deriving DecidableEq, Repr

/-- The attributes of a hidden descriptor part, as named fields (R29). -/
structure SegAttr where
  /-- For code: executable, conforming, readable, accessed; for data: 0, expand-down, writable, accessed. -/
  typ : BitVec 4
  /-- 1 for code and data, 0 for a system descriptor. -/
  s : Bool
  dpl : BitVec 2
  p : Bool
  avl : Bool
  /-- D or B: default size of code, stack-pointer size of a stack. -/
  db : Bool
  /-- Granularity of the limit. -/
  g : Bool
  deriving DecidableEq, Repr

/-- A segment register, LDTR or TR: the visible selector and the hidden part (R28, R29, R32). -/
structure SegReg where
  sel : Half
  base : Word
  limit : BitVec 20
  attr : SegAttr
  deriving DecidableEq, Repr

/-- The six segment registers (R28). -/
structure SegFile where
  es : SegReg
  cs : SegReg
  ss : SegReg
  ds : SegReg
  fs : SegReg
  gs : SegReg
  deriving DecidableEq, Repr

/-- GDTR or IDTR (R31). -/
structure TableReg where
  base : Word
  limit : Half
  deriving DecidableEq, Repr

/-- The system-table registers (R31, R32). -/
structure SysRegs where
  gdtr : TableReg
  idtr : TableReg
  ldtr : SegReg
  tr : SegReg
  deriving DecidableEq, Repr

/-- The control registers (R33, R35, R36, R37). -/
structure CtrlRegs where
  cr0 : Word
  cr2 : Word
  cr3 : Word
  cr4 : Word
  deriving DecidableEq, Repr

/-- The debug registers (R40 to R42); DR4 and DR5 have no storage (R43). -/
structure DebugRegs where
  dr0 : Word
  dr1 : Word
  dr2 : Word
  dr3 : Word
  dr6 : Word
  dr7 : Word
  deriving DecidableEq, Repr

/-- The model-specific registers with storage (R47 to R49, R51). -/
structure Msrs where
  mcar : Qword
  mctr : Qword
  tsc : Qword
  hwcr : Qword
  deriving DecidableEq, Repr

/-- The FPU status word by its fields (R54). -/
structure Fsw where
  ie : Bool
  de : Bool
  ze : Bool
  oe : Bool
  ue : Bool
  pe : Bool
  sf : Bool
  es : Bool
  c0 : Bool
  c1 : Bool
  c2 : Bool
  top : BitVec 3
  c3 : Bool
  b : Bool
  deriving DecidableEq, Repr

/-- The eight physical x87 registers (R52). -/
structure FpRegs where
  r0 : Ext
  r1 : Ext
  r2 : Ext
  r3 : Ext
  r4 : Ext
  r5 : Ext
  r6 : Ext
  r7 : Ext
  deriving DecidableEq, Repr

/-- Floating-point state (R52 to R56). -/
structure Fpu where
  regs : FpRegs
  /-- Control word (R53). -/
  cw : Half
  /-- Status word (R54). -/
  sw : Fsw
  /-- Tag word, two bits a register (R55). -/
  tw : Half
  /-- Selector and offset of the last floating-point instruction (R56). -/
  fcs : Half
  fip : Word
  /-- Last opcode (R56). -/
  fop : BitVec 11
  /-- Selector and offset of its memory operand (R56). -/
  fds : Half
  fdp : Word
  deriving DecidableEq, Repr

/-- Memory: the bytes that differ from what an unlisted address reads as, by rising physical address. -/
abbrev Memory := List Host.Cell

/-- A translation the TLB may hold (R63, R128). -/
structure TlbEntry where
  /-- The way: one of four in the set that bits 16-12 of the address choose, or one of the four entries for
  4-Mbyte pages (R9). -/
  way : Nat
  /-- Linear page number: bits 31-12, or bits 31-22 of a 4-Mbyte page. -/
  page : Nat
  /-- A 4-Mbyte page. -/
  big : Bool
  /-- Physical base of the page. -/
  base : Nat
  /-- Effective U/S, 1 for a user page (R125). -/
  us : Bool
  /-- Effective W/R, 1 for a writable page. -/
  wr : Bool
  /-- The D bit at load time. -/
  d : Bool
  pcd : Bool
  pwt : Bool
  /-- Kept by a load of CR3 when CR4.GPE is 1 (R124). -/
  g : Bool
  deriving DecidableEq, Repr

/-- MESI states of a valid data-cache line (R133). -/
inductive Mesi
  | modified | exclusive | shared
  deriving DecidableEq, Repr

/-- The linear tag of a line with what was copied from the translation it was made with (R63, R134, D15). -/
structure LineTag where
  /-- Linear address divided by 32. -/
  la : Nat
  /-- Effective U/S of the page. -/
  us : Bool
  /-- Effective W/R of the page. -/
  wr : Bool
  pcd : Bool
  pwt : Bool
  deriving DecidableEq, Repr

/-- A valid data-cache line. Its 32 bytes are what `mem` holds at the line's addresses (log 3). -/
structure DLine where
  /-- Physical line number (address divided by 32). -/
  line : Nat
  /-- The way, 0 to 3. -/
  way : Nat
  /-- Linear tag, when valid (R134). -/
  ltag : Option LineTag
  mesi : Mesi
  /-- The 32 bytes main memory holds, where they differ from the line's: the modified data of the line is not
  in memory yet, or another master wrote memory without an inquire cycle (R137, R152), or the memory is ROM. -/
  back : Option (List Byte)
  deriving DecidableEq, Repr

/-- A valid instruction-cache line (R132): two 16-byte storage units, which are always filled and invalidated
together (R9). -/
structure ILine where
  line : Nat
  way : Nat
  ltag : Option LineTag
  /-- The branch-prediction bit of each unit (R65, R845); timing only. -/
  bp : BitVec 2
  /-- The 32 bytes the line holds, where memory has changed under it without an inquire cycle (R152). -/
  code : Option (List Byte)
  deriving DecidableEq, Repr

/-- A byte that has changed, whose old value a fetch may still see (R145, D39, R800). -/
structure CodeMark where
  /-- Physical address of the byte. -/
  pa : Nat
  /-- Linear address it was stored through; none for the write of another master. -/
  la : Option Word
  /-- The byte before the change. -/
  old : Byte
  /-- A taken jump has followed the store. -/
  jumped : Bool
  deriving DecidableEq, Repr

/-- One bus cycle that the processor drives, as R191 records it. -/
structure Cycle where
  /-- D/C#: data, not code (R185). -/
  dc : Bool
  /-- M/IO#: memory, not I/O. -/
  mio : Bool
  /-- W/R#: a write. -/
  wr : Bool
  /-- CACHE# is asserted (R194). -/
  cache : Bool
  /-- A burst: a line fill or a writeback, of four transfers (R196, R197). -/
  burst : Bool
  /-- A31-A3, as the address of the quadword (R190). -/
  addr : Word
  /-- BE7# to BE0#, a 0 for each byte that moves (R190). -/
  be : Byte
  pcd : Bool
  pwt : Bool
  /-- LOCK# (R207). -/
  lock : Bool
  /-- SCYC (R207). -/
  scyc : Bool
  /-- The bytes that move, from the lowest address up; a burst starts with the quadword of `addr` (R196). -/
  data : List Byte
  deriving DecidableEq, Repr

/-- What the caches and the bus interface do in a step (R191, R234). -/
inductive CacheEvent
  /-- A bus cycle. -/
  | cycle (c : Cycle)
  /-- The writeback of an inquire cycle that came during the step: a cycle that is not the step's own (R238). -/
  | snooped (c : Cycle)
  /-- A bus cycle that BOFF# aborted: it is driven again from its beginning (R231). -/
  | aborted (c : Cycle)
  /-- An entry of the store buffer goes into the data cache, without a bus cycle. -/
  | store
  /-- A line gets the linear tag of another alias. -/
  | retag
  /-- A serializing instruction, an SMM entry: it waits for EWBE# (R147). -/
  | serial
  deriving DecidableEq, Repr

/-- An inquire cycle that arrives while a step drives its bus cycles (R239, R240). -/
structure Snoop where
  /-- Physical line number. -/
  line : Nat
  inv : Bool
  /-- It comes after the cacheability of a fill was established, with BOFF# asserted since then (R240 b). -/
  late : Bool
  /-- How many of the step's own cycles are done when it arrives, a writeback that had waited counted with them; its own
  writeback comes after them (R231, R232, R238). -/
  after : Nat
  /-- Its address had a parity error (R212). -/
  bad : Bool
  /-- Its answer, HIT# and HITM#, once it has one. -/
  reply : Option (Bool × Bool)
  deriving DecidableEq, Repr

/-- A line of the prefetch cache (R141). -/
structure PLine where
  /-- Physical line number. -/
  line : Nat
  /-- Which of its four quadwords have been fetched. -/
  quads : BitVec 4
  deriving DecidableEq, Repr

/-- The caches as software can observe them (R63), and what the bus sees of them. -/
structure Caches where
  tlb : List TlbEntry
  dlines : List DLine
  ilines : List ILine
  /-- The prefetch cache: at most two lines, the newest first (R141). -/
  prefetch : List PLine
  /-- Bytes changed since the last taken jump or serializing instruction (R145). -/
  marks : List CodeMark
  /-- Some clean line differs from main memory (R152). -/
  foreign : Bool
  /-- What the step has done so far, newest first (R191); the model's own field (log 4). -/
  events : List CacheEvent
  /-- The inquire cycles that arrive during the step, in their order (R236, R240). -/
  snoops : List Snoop
  /-- HIT# of the last inquire cycle (R237). -/
  hit : Bool
  /-- HITM#: a modified line was hit and its writeback is not done yet (R237). -/
  hitm : Bool
  /-- APCHK# of the last inquire cycle (R212). -/
  apchk : Bool
  deriving DecidableEq, Repr

/-- The I/O instruction that has just retired, as the SMM save area records it (R714). -/
structure IoTrap where
  port : Half
  input : Bool
  eip : Word
  esi : Word
  ecx : Word
  edi : Word
  deriving DecidableEq, Repr

/-- System Management Mode (R62). -/
structure Smm where
  /-- `in_smm`, the level of SMIACT#. -/
  active : Bool
  /-- `smm_base`. -/
  base : Word
  /-- The IN or OUT retired at this boundary, if any (R714). -/
  lastIo : Option IoTrap
  /-- A debug trap waits for RSM (R722). -/
  dbPostponed : Bool
  /-- The 512 bytes written at entry, to notice a changed read-only field (U14). -/
  image : Option (List Byte)
  /-- SMM was entered from Shutdown, to which RSM returns (R630, N44). -/
  fromShutdown : Bool
  deriving DecidableEq, Repr

/-- What holds interrupts off for one instruction (R61, R333, R656). -/
inductive Shadow
  | none
  /-- After an STI that set IF: INTR only. -/
  | sti
  /-- After a load of SS: everything but machine check and R/S#. -/
  | ss
  /-- After INIT: the first instruction is fetched before anything else is recognised. -/
  | init
  deriving DecidableEq, Repr

/-- What kind of event is delivered (R620). -/
inductive EventKind
  /-- A fault or trap of an instruction. -/
  | exception
  /-- INT n and INT3. -/
  | software
  /-- INTR, NMI and machine check. -/
  | external
  deriving DecidableEq, Repr

/-- A delivered event whose handler has not had its first instruction fetched (R628). -/
structure Handling where
  vec : Byte
  kind : EventKind
  /-- Its return offset, which a double fault would save. -/
  ret : Word
  deriving DecidableEq, Repr

/-- Interrupt latches, masks and shadows (R60, R61). -/
structure Intr where
  flush : Bool
  smi : Bool
  init : Bool
  nmi : Bool
  /-- `nmi_masked` (R664). -/
  nmiMasked : Bool
  shadow : Shadow
  /-- `mc_pending` (R612). -/
  mcPending : Bool
  /-- A debug trap is due at this boundary (R672 to R677). -/
  dbTrap : Bool
  /-- No instruction has begun since the exit from Stop Grant (R810). -/
  grantExit : Bool
  /-- INIT and NMI were both latched at the exit from Stop Grant: the NMI comes before any fetch (R656). -/
  nmiFirst : Bool
  /-- The vector of an acknowledged INTR whose delivery waits for EWBE# (R657, R660). -/
  acked : Option Byte
  /-- The event that a fault on the next fetch would be second to (R628). -/
  handling : Option Handling
  deriving DecidableEq, Repr

/-- What the step keeps of the instruction it runs; the model's own (log 5). -/
structure Scratch where
  /-- EIP of the instruction. -/
  start : Word
  /-- Breakpoints its accesses matched (R672, R673). -/
  hit0 : Bool
  hit1 : Bool
  hit2 : Bool
  hit3 : Bool
  /-- TF was set when it began (R674). -/
  tf : Bool
  /-- No debug trap and no change of RF follows it: it ended in an exception, or is waiting. -/
  noTrap : Bool
  /-- It loaded RF itself (R671). -/
  rfLoaded : Bool
  /-- The instruction before it loaded SS (R424). -/
  afterSs : Bool
  /-- The last-opcode value of a floating-point instruction (R56): opcode bits 2-0 and the ModRM byte. -/
  fop : BitVec 11
  deriving DecidableEq, Repr

/-- Where Stop Grant was entered from, and returns to (R743). -/
inductive GrantFrom
  | normal | halt | shutdown
  deriving DecidableEq, Repr

/-- Where Stop Grant Inquire was entered from (R745). -/
inductive InquireFrom
  | halt
  | shutdown
  | grant (src : GrantFrom)
  deriving DecidableEq, Repr

/-- The clock-control state (R64, R740). -/
inductive Clock
  | normal
  | halt
  | shutdown
  | stopGrant (src : GrantFrom)
  | stopGrantInquire (src : InquireFrom)
  | stopClock (src : GrantFrom)
  deriving DecidableEq, Repr

/-- The levels of the inputs that are sampled, true when asserted (R67, R68). -/
structure Pins where
  a20m : Bool
  /-- The level on the pin; what the processor sampled last is `BusUnit.ignne` (R590). -/
  ignne : Bool
  intr : Bool
  /-- The vector the interrupt controller would return (R685, D34). -/
  vector : Byte
  stpclk : Bool
  /-- R/S# is driven Low. -/
  rs : Bool
  ewbe : Bool
  hold : Bool
  ahold : Bool
  boff : Bool
  ken : Bool
  /-- WB/WT# is High. -/
  wbwt : Bool
  /-- INIT is held asserted (R656). -/
  init : Bool
  /-- System logic returns BRDY# for the cycles of the step (R200). -/
  brdy : Bool
  deriving DecidableEq, Repr

/-- The sixteen states of the TAP controller (R876). -/
inductive TapState
  | testLogicReset | runTestIdle
  | selectDr | captureDr | shiftDr | exit1Dr | pauseDr | exit2Dr | updateDr
  | selectIr | captureIr | shiftIr | exit1Ir | pauseIr | exit2Ir | updateIr
  deriving DecidableEq, Repr

/-- The test access port (R870 to R876). -/
structure Tap where
  ctl : TapState
  /-- The current instruction, 5 bits (R872). -/
  ir : BitVec 5
  irShift : BitVec 5
  /-- Bypass register. -/
  bypass : Bool
  /-- The identification or BIST result register while it shifts. -/
  drShift : BitVec 32
  /-- BIST result register (R874). -/
  bistResult : BitVec 9
  /-- TDO, floated outside the shift states (R870). -/
  tdo : Option Bool
  deriving DecidableEq, Repr

/-- Test and debug state (R65). -/
structure TestState where
  /-- `hdt_mode`, the level of PRDY (R860). -/
  hdt : Bool
  /-- HDT was entered by USEHDT (R875). -/
  hdtByTap : Bool
  /-- `frc_checker` (R855). -/
  frcChecker : Bool
  /-- `float_test` (R775). -/
  floatTest : Bool
  /-- The straps BRDYC# and BUSCHK# (R218), levels: drive strength, electrical only. -/
  strapBrdyc : Bool
  strapBuschk : Bool
  tap : Tap
  deriving DecidableEq, Repr

/-- The bus events besides memory cycles (R191, R193, R209, R215). -/
inductive BusEvent
  /-- A special cycle: byte enables, address, and the data of a branch-trace message. -/
  | special (be : Byte) (addr data : Word)
  /-- An I/O read of so many bytes of one doubleword, and the value returned. -/
  | ioRead (port : Half) (bytes : Nat) (value : Word) (pcd pwt : Bool)
  /-- An I/O write. -/
  | ioWrite (port : Half) (bytes : Nat) (value : Word) (pcd pwt : Bool)
  /-- The two cycles of an interrupt acknowledge and the vector they returned. -/
  | intAck (vector : Byte)
  deriving DecidableEq, Repr

/-- The part of a FLUSH# operation still to be done (R222). -/
inductive FlushPhase
  | idle
  /-- Modified lines are being written back: these are done, and still valid. -/
  | copying (done : List Nat)
  /-- Everything is invalid, nothing having been modified: the Flush Acknowledge cycle waits for the bus. -/
  | acknowledge
  deriving DecidableEq, Repr

/-- The bus interface between steps. -/
structure BusUnit where
  /-- A write was completed and EWBE# has not been sampled asserted since (R147). -/
  ewbeWait : Bool
  /-- BREQ was asserted in the last step: it drove a cycle, stored into the data cache, gave a line another linear tag, or
  needs the bus and does not have it (R234). -/
  want : Bool
  /-- A bus cycle has begun to which nothing will answer (R110, R200). -/
  hung : Bool
  /-- The snoop writeback buffer: a line whose writeback waits for the bus, and what main memory still holds (R143, R238). -/
  writeback : Option (Nat × List Byte)
  /-- A FLUSH# operation in progress (R222). -/
  flush : FlushPhase
  /-- PCHK# (R213). -/
  pchk : Bool
  /-- IERR# (R217). -/
  ierr : Bool
  /-- IGNNE# as last sampled (R590). -/
  ignne : Bool
  /-- BOFF# aborts the cycle of the next step that comes after so many others (R231). -/
  backoff : Option Nat
  deriving DecidableEq, Repr

/-- The whole machine. -/
structure State where
  /-- General registers (R20). -/
  gpr : Gpr
  /-- EIP (R22), the offset of the next instruction. -/
  eip : Word
  /-- `next_pc` (R15) of the instruction being executed; the model's own field (log 5). -/
  nextEip : Word
  /-- EFLAGS (R23). -/
  flags : Flags
  /-- CPL as Protected mode holds it (R45). -/
  cpl : BitVec 2
  /-- The six segment registers (R28, R29). -/
  seg : SegFile
  /-- GDTR, IDTR, LDTR, TR (R31, R32). -/
  sys : SysRegs
  /-- CR0, CR2, CR3, CR4 (R33 to R38). -/
  cr : CtrlRegs
  /-- Debug registers (R40 to R42). -/
  dr : DebugRegs
  /-- Model-specific registers (R46 to R51). -/
  msr : Msrs
  /-- Floating-point state (R52 to R56). -/
  fpu : Fpu
  /-- Physical memory as the processor sees it (R57, log 3). -/
  mem : Memory
  /-- TLB, cache lines, stale code bytes (R63), the bus cycles of the step. -/
  cache : Caches
  /-- What the memory that SMIACT# does not select now holds (R705, D38). -/
  other : Memory
  /-- System Management Mode (R62). -/
  smm : Smm
  /-- Interrupt latches and masks (R60, R61). -/
  intr : Intr
  /-- What the end of the step must know of the instruction; the model's own field (log 5). -/
  scr : Scratch
  /-- Clock-control state (R64). -/
  clock : Clock
  /-- Levels of the sampled inputs (R67, R68). -/
  pins : Pins
  /-- HDT, FRC, float test, TAP (R65). -/
  test : TestState
  /-- Special, I/O and acknowledge cycles driven so far, newest first (R191). -/
  bus : List BusEvent
  /-- The bus interface between steps (R147, R222, R234, R238). -/
  biu : BusUnit
  /-- How many free values have been drawn; the model's own field (log 2). -/
  draws : Nat
  /-- The parameters of R12. -/
  plat : Platform
  deriving DecidableEq, Repr

/-- Why the machine stops without an exception of its own. Every one is the hardware being stuck: safe, since the
model claims nothing further where the spec gives no further behaviour. -/
inductive Fault
  /-- The output-float test mode (R775): raised by `step`; only RESET leaves it. Safe. -/
  | outputFloat
  /-- The TAP forces or floats the outputs (HIGHZ, ALL1, ALL0, R873, U19): raised by `step`. Safe. -/
  | outputsForced
  deriving DecidableEq, Repr

/-- Why the model declines an instruction. All are safe: nothing is claimed of the hardware there. -/
inductive Refusal
  /-- An arm of `exec` without its meaning: raised by Dispatch. Safe. -/
  | notModelled (mnemonic : String)
  /-- An encoding outside the spec (R7, R278): raised by the fetch. Safe. -/
  | outOfScope (name : String)
  /-- A far JMP through a call gate (R646, D28): raised by JMP far. Safe. -/
  | callGate
  /-- An I/O range past port FFFFh (U11): raised by IN and OUT. Safe. -/
  | ioPastEnd
  /-- WRMSR to an array whose format is proprietary, or to no array (R842, U17): raised by WRMSR. Safe. -/
  | arrayWrite
  /-- HWCR.DC holds a reserved value (U16): raised by `step`. Safe. -/
  | debugControl
  /-- RSM with a misused save area (U14): raised by RSM. Safe. -/
  | saveArea
  /-- The reserved precision control (R531): raised by the x87 arithmetic. Safe. -/
  | precision
  deriving DecidableEq, Repr

/-! ### After RESET -/

/-- Attributes of a code segment after reset: readable, present, 16-bit (R30, D5; Accessed is log 7). -/
def SegAttr.code16 : SegAttr :=
  { typ := 0b1011, s := true, dpl := 0, p := true, avl := false, db := false, g := false }

/-- Attributes of a data segment after reset: writable, present, expand-up, 16-bit (R30, D5; log 7). -/
def SegAttr.data16 : SegAttr :=
  { typ := 0b0011, s := true, dpl := 0, p := true, avl := false, db := false, g := false }

/-- Attributes of LDTR after reset (log 7). -/
def SegAttr.ldt : SegAttr :=
  { typ := 0b0010, s := false, dpl := 0, p := true, avl := false, db := false, g := false }

/-- Attributes of TR after reset (log 7). -/
def SegAttr.tss : SegAttr :=
  { typ := 0b1011, s := false, dpl := 0, p := true, avl := false, db := false, g := false }

/-- A data segment register after reset (R30). -/
def SegReg.data0 : SegReg := { sel := 0, base := 0, limit := 0xFFFF, attr := .data16 }

/-- CS after reset (R30, R772). -/
def SegReg.resetCs : SegReg := { sel := 0xF000, base := 0xFFFF0000, limit := 0xFFFF, attr := .code16 }

/-- The segment registers after RESET and INIT (R70, R71). -/
def SegFile.reset : SegFile :=
  { es := .data0, cs := .resetCs, ss := .data0, ds := .data0, fs := .data0, gs := .data0 }

/-- EFLAGS 0000_0002h (R23). -/
def Flags.reset : Flags :=
  { cf := false, pf := false, af := false, zf := false, sf := false, tf := false, ifl := false, df := false,
    of := false, iopl := 0, nt := false, rf := false, vm := false, ac := false, vif := false, vip := false,
    id := false }

/-- The system-table registers after RESET and INIT (R31, R32, R70). -/
def SysRegs.reset : SysRegs :=
  { gdtr := { base := 0, limit := 0xFFFF }, idtr := { base := 0, limit := 0xFFFF },
    ldtr := { sel := 0, base := 0, limit := 0xFFFF, attr := .ldt },
    tr := { sel := 0, base := 0, limit := 0xFFFF, attr := .tss } }

/-- The debug registers after RESET and INIT (R70). -/
def DebugRegs.reset : DebugRegs :=
  { dr0 := 0, dr1 := 0, dr2 := 0, dr3 := 0, dr6 := 0xFFFF0FF0, dr7 := 0x00000400 }

/-- The general registers after RESET and INIT: EDX holds the identifier, the others 0 (R20, R771). -/
def Gpr.reset (p : Platform) : Gpr :=
  { eax := 0, ecx := 0, edx := 0x00000500 ||| p.stepping.setWidth 32, ebx := 0, esp := 0, ebp := 0, esi := 0,
    edi := 0 }

/-- The floating-point state after RESET (R52 to R56, D8). -/
def Fpu.reset : Fpu :=
  { regs := { r0 := 0, r1 := 0, r2 := 0, r3 := 0, r4 := 0, r5 := 0, r6 := 0, r7 := 0 }, cw := 0x0040,
    sw := { ie := false, de := false, ze := false, oe := false, ue := false, pe := false, sf := false, es := false,
            c0 := false, c1 := false, c2 := false, top := 0, c3 := false, b := false },
    tw := 0x5555, fcs := 0, fip := 0, fop := 0, fds := 0, fdp := 0 }

/-- No cache line and no TLB entry is valid (R63). -/
def Caches.empty : Caches :=
  { tlb := [], dlines := [], ilines := [], prefetch := [], marks := [], foreign := false, events := [], snoops := [],
    hit := false, hitm := false, apchk := false }

/-- The bus interface after RESET: it has nothing to do, the check outputs are negated. DESIGN CHOICE (log 54): BREQ is 1, as R219
and the pairing of R774 have it, though R234 says that it is low while RESET is asserted. -/
def BusUnit.idle : BusUnit :=
  { ewbeWait := false, want := true, hung := false, writeback := none, flush := .idle, pchk := false, ierr := false,
    ignne := false, backoff := none }

/-- No latch is set and nothing is masked (R60, R61). -/
def Intr.reset : Intr :=
  { flush := false, smi := false, init := false, nmi := false, nmiMasked := false, shadow := .none,
    mcPending := false, dbTrap := false, grantExit := false, nmiFirst := false, acked := none,
    handling := none }

/-- No instruction is in progress (log 5). -/
def Scratch.reset : Scratch :=
  { start := 0, hit0 := false, hit1 := false, hit2 := false, hit3 := false, tf := false, noTrap := false,
    rfLoaded := false, afterSs := false, fop := 0 }

/-- The inputs of D20: everything inactive, EWBE# asserted, BRDY# returned; KEN# asserted and WB/WT# High but where a
region says otherwise (log 13). -/
def Pins.idle : Pins :=
  { a20m := false, ignne := false, intr := false, vector := 0, stpclk := false, rs := false, ewbe := true,
    hold := false, ahold := false, boff := false, ken := true, wbwt := true, init := false, brdy := true }

/-- The TAP after its automatic reset: Test-Logic-Reset with IDCODE (R870, R876). -/
def Tap.reset : Tap :=
  { ctl := .testLogicReset, ir := 0b00010, irShift := 0, bypass := false, drShift := 0, bistResult := 0,
    tdo := none }

/-- No test or debug mode (R65). -/
def TestState.reset : TestState :=
  { hdt := false, hdtByTap := false, frcChecker := false, floatTest := false, strapBrdyc := false, strapBuschk := false,
    tap := .reset }

/-- The machine right after RESET (R70, R770), with memory holding nothing that was written. -/
def State.reset : State :=
  { gpr := Gpr.reset .default
    eip := 0x0000FFF0
    nextEip := 0
    flags := .reset
    cpl := 0
    seg := .reset
    sys := .reset
    cr := { cr0 := 0x60000010, cr2 := 0, cr3 := 0, cr4 := 0 }
    dr := .reset
    msr := { mcar := 0, mctr := 0, tsc := 0, hwcr := 0 }
    fpu := .reset
    mem := []
    cache := .empty
    other := []
    smm := { active := false, base := 0x00030000, lastIo := none, dbPostponed := false, image := none,
             fromShutdown := false }
    intr := .reset
    scr := .reset
    clock := .normal
    pins := .idle
    test := .reset
    bus := []
    biu := .idle
    draws := 0
    plat := .default }

/-! ### Updates of one field. Laws/State.lean has the lemma for every field under every update. -/

/-- Replace `gpr`. -/
def State.setGpr (s : State) (v : Gpr) : State := { s with gpr := v }

/-- Replace `eip`. -/
def State.setEip (s : State) (v : Word) : State := { s with eip := v }

/-- Replace `nextEip`. -/
def State.setNextEip (s : State) (v : Word) : State := { s with nextEip := v }

/-- Replace `flags`. -/
def State.setFlags (s : State) (v : Flags) : State := { s with flags := v }

/-- Replace `cpl`. -/
def State.setCpl (s : State) (v : BitVec 2) : State := { s with cpl := v }

/-- Replace `seg`. -/
def State.setSeg (s : State) (v : SegFile) : State := { s with seg := v }

/-- Replace `sys`. -/
def State.setSys (s : State) (v : SysRegs) : State := { s with sys := v }

/-- Replace `cr`. -/
def State.setCr (s : State) (v : CtrlRegs) : State := { s with cr := v }

/-- Replace `dr`. -/
def State.setDr (s : State) (v : DebugRegs) : State := { s with dr := v }

/-- Replace `msr`. -/
def State.setMsr (s : State) (v : Msrs) : State := { s with msr := v }

/-- Replace `fpu`. -/
def State.setFpu (s : State) (v : Fpu) : State := { s with fpu := v }

/-- Replace `mem`. -/
def State.setMem (s : State) (v : Memory) : State := { s with mem := v }

/-- Replace `cache`. -/
def State.setCache (s : State) (v : Caches) : State := { s with cache := v }

/-- Replace `other`. -/
def State.setOther (s : State) (v : Memory) : State := { s with other := v }

/-- Replace `smm`. -/
def State.setSmm (s : State) (v : Smm) : State := { s with smm := v }

/-- Replace `intr`. -/
def State.setIntr (s : State) (v : Intr) : State := { s with intr := v }

/-- Replace `scr`. -/
def State.setScr (s : State) (v : Scratch) : State := { s with scr := v }

/-- Replace `clock`. -/
def State.setClock (s : State) (v : Clock) : State := { s with clock := v }

/-- Replace `pins`. -/
def State.setPins (s : State) (v : Pins) : State := { s with pins := v }

/-- Replace `test`. -/
def State.setTest (s : State) (v : TestState) : State := { s with test := v }

/-- Replace `bus`. -/
def State.setBus (s : State) (v : List BusEvent) : State := { s with bus := v }

/-- Replace `biu`. -/
def State.setBiu (s : State) (v : BusUnit) : State := { s with biu := v }

/-- Replace `draws`. -/
def State.setDraws (s : State) (v : Nat) : State := { s with draws := v }

/-- Replace `plat`. -/
def State.setPlat (s : State) (v : Platform) : State := { s with plat := v }

end Sys2Proof.Machine
end

