-- ==== Sys2Proof/Machine/Bits.lean ====
section
/-! DEFINITION. Bit fields, byte order, and memory as a canonical list of cells. -/
namespace Sys2Proof.Machine

open Sys2Proof

/-- A one-bit flag as a number at bit `i` of a word. -/
def bitAt (b : Bool) (i : Nat) : Word := if b then BitVec.twoPow 32 i else 0

/-- Replace bit `i` of a word. -/
def putBit (w : Word) (i : Nat) (b : Bool) : Word := (w &&& ~~~(BitVec.twoPow 32 i)) ||| bitAt b i

/-- The number that bytes spell, least significant first (R101). -/
def leNat : List Byte → Nat
  | [] => 0
  | b :: bs => b.toNat + 256 * leNat bs

/-- A value of width `w` read from bytes, least significant first (R101). -/
def ofLe (w : Nat) (bs : List Byte) : BitVec w := BitVec.ofNat w (leNat bs)

/-- The bytes of a value, least significant first (R101). -/
def toLe (n : Nat) {w : Nat} (v : BitVec w) : List Byte := giveLe n v.toNat

/-- PF: the low byte has an even number of 1 bits (R24). -/
def evenParity (b : Byte) : Bool :=
  !(b.getLsbD 0 ^^ b.getLsbD 1 ^^ b.getLsbD 2 ^^ b.getLsbD 3 ^^ b.getLsbD 4 ^^ b.getLsbD 5 ^^ b.getLsbD 6
    ^^ b.getLsbD 7)

/-! ### Memory -/

/-- What a byte that nothing has written reads as: DESIGN CHOICE 00h (log 1); the spec gives no contents. -/
def unlisted : Byte := 0

/-- Read one byte at a physical address. -/
def Memory.read : Memory → Nat → Byte
  | [], _ => unlisted
  | (k, v) :: t, a => if k = a then v else Memory.read t a

/-- Remove the cell of an address. -/
def Memory.erase : Memory → Nat → Memory
  | [], _ => []
  | (k, v) :: t, a => if k = a then Memory.erase t a else (k, v) :: Memory.erase t a

/-- Put a cell at its place in the rising order. -/
def Memory.insert : Memory → Nat → Byte → Memory
  | [], a, v => [(a, v)]
  | (k, x) :: t, a, v =>
    if k = a then (a, v) :: t
    else if a < k then (a, v) :: (k, x) :: t
    else (k, x) :: Memory.insert t a v

/-- Write one byte; writing what an unlisted address reads as removes the cell. -/
def Memory.write (m : Memory) (a : Nat) (v : Byte) : Memory :=
  if v = unlisted then m.erase a else m.insert a v

/-- The addresses rise strictly from above `lo`, and no cell holds what an unlisted address reads as. -/
def Memory.wfFrom : Option Nat → Memory → Bool
  | _, [] => true
  | lo, (k, v) :: t =>
    (match lo with | none => true | some l => decide (l < k)) && decide (v ≠ unlisted) && Memory.wfFrom (some k) t

/-- The canonical form. -/
def Memory.wf (m : Memory) : Bool := Memory.wfFrom none m

/-- Write bytes at consecutive addresses. -/
def Memory.writes : Memory → Nat → List Byte → Memory
  | m, _, [] => m
  | m, a, b :: bs => Memory.writes (m.write a b) (a + 1) bs

/-- Read `n` bytes at consecutive addresses. -/
def Memory.reads (m : Memory) : Nat → Nat → List Byte
  | _, 0 => []
  | a, n + 1 => m.read a :: Memory.reads m (a + 1) n

/-- The physical addresses are 32 bits (R8). -/
def physLimit : Nat := 4294967296

/-- `PhysRead` of a little-endian value (R15): no translation; addresses wrap at 2^32. -/
def physBytes (m : Memory) : Nat → Nat → List Byte
  | _, 0 => []
  | a, n + 1 => m.read (a % physLimit) :: physBytes m (a + 1) n

/-- `PhysRead(pa, 4)` (R15). -/
def physRead32 (m : Memory) (a : Nat) : Word := ofLe 32 (physBytes m a 4)

/-- `PhysWrite` of bytes (R15). -/
def physWrites : Memory → Nat → List Byte → Memory
  | m, _, [] => m
  | m, a, b :: bs => physWrites (m.write (a % physLimit) b) (a + 1) bs

end Sys2Proof.Machine
end

