-- ==== Sys2Proof/Machine/Regs.lean ====
section
/-! DEFINITION. Register views, flag and control-register fields, and the operating mode. -/
namespace Sys2Proof.Machine

open Sys2Proof

/-! ### General registers -/

/-- A 32-bit register by number (R20). -/
def Gpr.get (g : Gpr) : Reg → Word
  | .eax => g.eax | .ecx => g.ecx | .edx => g.edx | .ebx => g.ebx
  | .esp => g.esp | .ebp => g.ebp | .esi => g.esi | .edi => g.edi

/-- Replace a 32-bit register by number (R20). -/
def Gpr.put (g : Gpr) (r : Reg) (v : Word) : Gpr :=
  match r with
  | .eax => { g with eax := v } | .ecx => { g with ecx := v } | .edx => { g with edx := v }
  | .ebx => { g with ebx := v } | .esp => { g with esp := v } | .ebp => { g with ebp := v }
  | .esi => { g with esi := v } | .edi => { g with edi := v }

/-- The 32-bit register that holds an 8-bit register (R21). -/
def byteHome : Reg → Reg
  | .eax => .eax | .ecx => .ecx | .edx => .edx | .ebx => .ebx
  | .esp => .eax | .ebp => .ecx | .esi => .edx | .edi => .ebx

/-- An 8-bit register number names bits 15-8 of its home (R21). -/
def isHighByte : Reg → Bool
  | .eax => false | .ecx => false | .edx => false | .ebx => false
  | .esp => true | .ebp => true | .esi => true | .edi => true

/-- The 8-bit, 16-bit or 32-bit view of a register number (R21). -/
def Gpr.view (g : Gpr) (sz : Size) (r : Reg) : BitVec sz.bits :=
  match sz with
  | .b => if (isHighByte r) then (g.get (byteHome r)).extractLsb' 8 8 else (g.get (byteHome r)).extractLsb' 0 8
  | .w => (g.get r).extractLsb' 0 16
  | .d => g.get r

/-- Replace an 8-bit view: the other bits of the 32-bit register keep their value (R21). -/
def putByte (w : Word) (high : Bool) (v : Byte) : Word :=
  if high then (w.extractLsb' 16 16) ++ (v ++ (w.extractLsb' 0 8)) else (w.extractLsb' 8 24) ++ v

/-- Replace a 16-bit view (R21). -/
def putHalf (w : Word) (v : Half) : Word := (w.extractLsb' 16 16) ++ v

/-- Write an 8-bit, 16-bit or 32-bit view (R21). -/
def Gpr.putView (g : Gpr) (sz : Size) (r : Reg) (v : BitVec sz.bits) : Gpr :=
  match sz with
  | .b => g.put (byteHome r) (putByte (g.get (byteHome r)) (isHighByte r) v)
  | .w => g.put r (putHalf (g.get r) v)
  | .d => g.put r v

/-- Read a register of the state. -/
def State.reg (s : State) (r : Reg) : Word := s.gpr.get r

/-- Write a register of the state. -/
def State.putReg (s : State) (r : Reg) (v : Word) : State := s.setGpr (s.gpr.put r v)

/-- Read a view of the state. -/
def State.view (s : State) (sz : Size) (r : Reg) : BitVec sz.bits := s.gpr.view sz r

/-- Write a view of the state. -/
def State.putView (s : State) (sz : Size) (r : Reg) (v : BitVec sz.bits) : State :=
  s.setGpr (s.gpr.putView sz r v)

/-! ### EFLAGS -/

/-- EFLAGS as a word (R23): bit 1 reads 1, the other reserved bits read 0. -/
def Flags.toWord (f : Flags) : Word :=
  bitAt f.cf 0 ||| 2 ||| bitAt f.pf 2 ||| bitAt f.af 4 ||| bitAt f.zf 6 ||| bitAt f.sf 7 ||| bitAt f.tf 8
    ||| bitAt f.ifl 9 ||| bitAt f.df 10 ||| bitAt f.of 11 ||| (f.iopl.setWidth 32 <<< 12) ||| bitAt f.nt 14
    ||| bitAt f.rf 16 ||| bitAt f.vm 17 ||| bitAt f.ac 18 ||| bitAt f.vif 19 ||| bitAt f.vip 20 ||| bitAt f.id 21

/-- EFLAGS from a word; the reserved bits are forced (R23). -/
def Flags.ofWord (w : Word) : Flags :=
  { cf := w.getLsbD 0, pf := w.getLsbD 2, af := w.getLsbD 4, zf := w.getLsbD 6, sf := w.getLsbD 7,
    tf := w.getLsbD 8, ifl := w.getLsbD 9, df := w.getLsbD 10, of := w.getLsbD 11, iopl := w.extractLsb' 12 2,
    nt := w.getLsbD 14, rf := w.getLsbD 16, vm := w.getLsbD 17, ac := w.getLsbD 18, vif := w.getLsbD 19,
    vip := w.getLsbD 20, id := w.getLsbD 21 }

/-! ### Control registers -/

/-- CR0.PE (R33). -/
def State.pe (s : State) : Bool := s.cr.cr0.getLsbD 0
/-- CR0.MP. -/
def State.mp (s : State) : Bool := s.cr.cr0.getLsbD 1
/-- CR0.EM. -/
def State.em (s : State) : Bool := s.cr.cr0.getLsbD 2
/-- CR0.TS. -/
def State.ts (s : State) : Bool := s.cr.cr0.getLsbD 3
/-- CR0.NE. -/
def State.ne (s : State) : Bool := s.cr.cr0.getLsbD 5
/-- CR0.WP. -/
def State.wp (s : State) : Bool := s.cr.cr0.getLsbD 16
/-- CR0.AM. -/
def State.am (s : State) : Bool := s.cr.cr0.getLsbD 18
/-- CR0.NW. -/
def State.nw (s : State) : Bool := s.cr.cr0.getLsbD 29
/-- CR0.CD. -/
def State.cd (s : State) : Bool := s.cr.cr0.getLsbD 30
/-- CR0.PG. -/
def State.pg (s : State) : Bool := s.cr.cr0.getLsbD 31
/-- CR4.VME (R37). -/
def State.vme (s : State) : Bool := s.cr.cr4.getLsbD 0
/-- CR4.PVI. -/
def State.pvi (s : State) : Bool := s.cr.cr4.getLsbD 1
/-- CR4.TSD. -/
def State.tsd (s : State) : Bool := s.cr.cr4.getLsbD 2
/-- CR4.DE. -/
def State.dbgExt (s : State) : Bool := s.cr.cr4.getLsbD 3
/-- CR4.PSE. -/
def State.pse (s : State) : Bool := s.cr.cr4.getLsbD 4
/-- CR4.MCE. -/
def State.mce (s : State) : Bool := s.cr.cr4.getLsbD 6
/-- CR4.GPE. -/
def State.gpe (s : State) : Bool := s.cr.cr4.getLsbD 7

/-- Replace CR0. -/
def State.putCr0 (s : State) (v : Word) : State := s.setCr { s.cr with cr0 := v }
/-- Replace CR2. -/
def State.putCr2 (s : State) (v : Word) : State := s.setCr { s.cr with cr2 := v }
/-- Replace CR3. -/
def State.putCr3 (s : State) (v : Word) : State := s.setCr { s.cr with cr3 := v }
/-- Replace CR4. -/
def State.putCr4 (s : State) (v : Word) : State := s.setCr { s.cr with cr4 := v }

/-! ### Mode and privilege -/

/-- The operating modes (R44). -/
inductive Mode
  | real | prot | v86 | smm
  deriving DecidableEq, Repr

/-- The operating mode (R44). A handler that sets CR0.PE is in Protected mode inside SMM, `in_smm` staying 1 (R704, C17);
where a rule tests `in_smm` itself, the model asks `State.realStyle` (log 51). -/
def State.mode (s : State) : Mode :=
  if s.pe then (if s.flags.vm then .v86 else .prot) else if s.smm.active then .smm else .real

/-- `CR0.PE = 0 or in_smm`: no descriptors, no level, the Real-mode vector table (R332 to R336, R486, R620, R644, R646). -/
def State.realStyle (s : State) : Bool := !s.pe || s.smm.active

/-- FERR# is not driven and IGNNE# not sampled: outside the Normal state, with PRDY or INIT asserted (R590). DESIGN CHOICE (log
56): Stop Grant Inquire counts among these states, though R590 lists Shutdown, Halt, Stop Grant and Stop Clock only. -/
def State.fpSilent (s : State) : Bool := s.clock != .normal || s.test.hdt || s.pins.init

/-- IGNNE# as the processor knows it: its level, or where it is not sampled the level sampled last (R590). -/
def State.ignne (s : State) : Bool := if s.fpSilent then s.biu.ignne else s.pins.ignne

/-- CPL as a number: 0 in Real mode and SMM, 3 in Virtual-8086 mode (R45). -/
def State.level (s : State) : Nat :=
  match s.mode with
  | .real => 0
  | .smm => 0
  | .v86 => 3
  | .prot => s.cpl.toNat

/-- Default operand and address size 32 (R262): only a 32-bit code segment in Protected mode. -/
def State.code32 (s : State) : Bool :=
  match s.mode with
  | .prot => s.seg.cs.attr.db
  | .real => false
  | .v86 => false
  | .smm => false

/-! ### Segment registers -/

/-- A segment register by number (R28). -/
def SegFile.get (f : SegFile) : Seg → SegReg
  | .es => f.es | .cs => f.cs | .ss => f.ss | .ds => f.ds | .fs => f.fs | .gs => f.gs

/-- Replace a segment register by number. -/
def SegFile.put (f : SegFile) (r : Seg) (v : SegReg) : SegFile :=
  match r with
  | .es => { f with es := v } | .cs => { f with cs := v } | .ss => { f with ss := v }
  | .ds => { f with ds := v } | .fs => { f with fs := v } | .gs => { f with gs := v }

/-- Replace a segment register of the state. -/
def State.putSeg (s : State) (r : Seg) (v : SegReg) : State := s.setSeg (s.seg.put r v)

/-- The effective byte limit (R29, R641). -/
def SegReg.byteLimit (r : SegReg) : Nat :=
  if r.attr.g then r.limit.toNat * 4096 + 4095 else r.limit.toNat

/-- A null selector: index 0 in the GDT (R644). -/
def nullSel (sel : Half) : Bool := sel.extractLsb' 2 14 = 0

/-- The selector with its RPL bits cleared, as an error code names it (R644). -/
def selErr (sel : Half) : Half := sel &&& 0xFFFC

/-- The twelve attribute bits in descriptor order; the order in the save area is not given (N20): DESIGN CHOICE
(log 18). -/
def SegAttr.toBits (a : SegAttr) : BitVec 12 :=
  BitVec.ofBool a.g ++ BitVec.ofBool a.db ++ 0#1 ++ BitVec.ofBool a.avl ++ BitVec.ofBool a.p ++ a.dpl
    ++ BitVec.ofBool a.s ++ a.typ

/-- The attributes from their twelve bits (log 18). -/
def SegAttr.ofBits (b : BitVec 12) : SegAttr :=
  { typ := b.extractLsb' 0 4, s := b.getLsbD 4, dpl := b.extractLsb' 5 2, p := b.getLsbD 7, avl := b.getLsbD 8,
    db := b.getLsbD 10, g := b.getLsbD 11 }

/-- A code segment (R641). -/
def SegAttr.isCode (a : SegAttr) : Bool := a.s && a.typ.getLsbD 3
/-- A data segment (R641). -/
def SegAttr.isData (a : SegAttr) : Bool := a.s && !a.typ.getLsbD 3
/-- A writable data segment (R641). -/
def SegAttr.writable (a : SegAttr) : Bool := a.isData && a.typ.getLsbD 1
/-- A segment that data can be read from: data, or readable code (R112, R641). -/
def SegAttr.readable (a : SegAttr) : Bool := a.isData || (a.isCode && a.typ.getLsbD 1)
/-- A conforming code segment (R641). -/
def SegAttr.conforming (a : SegAttr) : Bool := a.isCode && a.typ.getLsbD 2
/-- An expand-down data segment (R641). -/
def SegAttr.expandDown (a : SegAttr) : Bool := a.isData && a.typ.getLsbD 2

/-- The hidden part of a Virtual-8086 segment: base from the selector, limit FFFFh, writable data, DPL 3 (R113). -/
def SegReg.v86 (sel : Half) : SegReg :=
  { sel := sel, base := sel.setWidth 32 <<< 4, limit := 0xFFFF, attr := { SegAttr.data16 with dpl := 3 } }

/-- The base of a Real-mode load: the selector times 16, limit and attributes unchanged (R30, R644). -/
def SegReg.realLoad (r : SegReg) (sel : Half) : SegReg := { r with sel := sel, base := sel.setWidth 32 <<< 4 }

end Sys2Proof.Machine
end

