-- ==== Sys2Proof/Machine/Flags.lean ====
section
/-! DEFINITION. The status flags: conditions (R274), flag results with their undefined cases (R15, U1), and the flags of
sums, differences and logic (R361). -/
namespace Sys2Proof.Machine

open Sys2Proof

/-- What an instruction does to one status flag. -/
inductive FlagVal
  | keep
  | to (b : Bool)
  /-- Undefined: a free value (R15). -/
  | undef
  deriving DecidableEq, Repr

/-- What an instruction does to the six status flags. -/
structure FlagSet where
  cf : FlagVal
  pf : FlagVal
  af : FlagVal
  zf : FlagVal
  sf : FlagVal
  of : FlagVal
  deriving DecidableEq, Repr

/-- The new value of a flag: `n` is the draw an undefined one takes. -/
def FlagVal.value (v : FlagVal) (old : Bool) (n : Nat) : Bool :=
  match v with
  | .keep => old
  | .to b => b
  | .undef => Config.freeBit n

/-- Some flag is undefined. -/
def FlagSet.open (x : FlagSet) : Bool :=
  x.cf == .undef || x.pf == .undef || x.af == .undef || x.zf == .undef || x.sf == .undef || x.of == .undef

/-- The flags after: each undefined one is a draw of its own, from `n` on. -/
def FlagSet.flags (x : FlagSet) (f : Flags) (n : Nat) : Flags :=
  { f with cf := x.cf.value f.cf n, pf := x.pf.value f.pf (n + 1), af := x.af.value f.af (n + 2),
           zf := x.zf.value f.zf (n + 3), sf := x.sf.value f.sf (n + 4), of := x.of.value f.of (n + 5) }

/-- Set the status flags. -/
def State.putFlags (s : State) (x : FlagSet) : State :=
  (s.setFlags (x.flags s.flags s.draws)).setDraws (if x.open then s.draws + 6 else s.draws)

/-- Nothing changes. -/
def FlagSet.none : FlagSet := { cf := .keep, pf := .keep, af := .keep, zf := .keep, sf := .keep, of := .keep }

/-- All six undefined. -/
def FlagSet.undefined : FlagSet :=
  { cf := .undef, pf := .undef, af := .undef, zf := .undef, sf := .undef, of := .undef }

/-- The condition codes (R274). -/
def condHolds (c : Cond) (f : Flags) : Bool :=
  match c with
  | .o => f.of
  | .no => !f.of
  | .b => f.cf
  | .ae => !f.cf
  | .e => f.zf
  | .ne => !f.zf
  | .be => f.cf || f.zf
  | .a => !f.cf && !f.zf
  | .s => f.sf
  | .ns => !f.sf
  | .p => f.pf
  | .np => !f.pf
  | .l => f.sf != f.of
  | .ge => f.sf == f.of
  | .le => f.zf || f.sf != f.of
  | .g => !f.zf && f.sf == f.of

/-- `SZP(r)` (R361), the other flags as given. -/
def szp {w : Nat} (r : BitVec w) (cf af of : FlagVal) : FlagSet :=
  { cf := cf, pf := .to (evenParity (r.setWidth 8)), af := af, zf := .to (r == 0), sf := .to r.msb, of := of }

/-- `add_flags(x, y, c, r)` (R361). -/
def addFlags {w : Nat} (x y : BitVec w) (c : Bool) (r : BitVec w) : FlagSet :=
  szp r (.to (decide (2 ^ w ≤ x.toNat + y.toNat + c.toNat))) (.to ((x ^^^ y ^^^ r).getLsbD 4))
    (.to (x.msb == y.msb && r.msb != x.msb))

/-- `sub_flags(x, y, c, r)` (R361). -/
def subFlags {w : Nat} (x y : BitVec w) (c : Bool) (r : BitVec w) : FlagSet :=
  szp r (.to (decide (x.toNat < y.toNat + c.toNat))) (.to ((x ^^^ y ^^^ r).getLsbD 4))
    (.to (x.msb != y.msb && r.msb != x.msb))

/-- `logic_flags(r)` (R361): AF undefined. -/
def logicFlags {w : Nat} (r : BitVec w) : FlagSet := szp r (.to false) .undef (.to false)

end Sys2Proof.Machine
end

