-- ==== Sys2Proof/Machine/Monad.lean ====
section
/-! DEFINITION. How a meaning is written: a computation on the state that goes on, raises an exception, or stops.
`run` turns it into an outcome in Deliver.lean. -/
namespace Sys2Proof.Machine

open Sys2Proof

/-- An exception being raised (R15, R601): its vector, its error code, and what it records besides. -/
structure Exc where
  vec : Byte
  err : Option Half
  /-- The faulting linear address of a page fault (R127). -/
  cr2 : Option Word
  /-- Bits it sets in DR6 (R671, R675, R676). -/
  dr6 : Word
  /-- It clears DR7.GD (R675). -/
  clearGd : Bool
  /-- Its saved flags image has RF set (R671): every fault but an instruction breakpoint. -/
  setRf : Bool
  /-- The state reached so far stands: a fault in the new task's context (R645). -/
  committed : Bool
  deriving DecidableEq, Repr

/-- Why a computation does not go on. -/
inductive Stop
  /-- An exception, to be taken (R620). -/
  | exc (e : Exc)
  /-- A fault of the model. -/
  | fault (f : Fault)
  /-- A refusal of the model. -/
  | refused (r : Refusal)
  /-- The instruction waits: the step ends with nothing done (R590). -/
  | wait
  deriving DecidableEq, Repr

/-- A computation on the state. -/
abbrev M := EStateM Stop State

/-! ### Vectors (R601) -/

/-- Divide error. -/
abbrev vDE : Byte := 0
/-- Debug. -/
abbrev vDB : Byte := 1
/-- Non-maskable interrupt. -/
abbrev vNMI : Byte := 2
/-- Breakpoint. -/
abbrev vBP : Byte := 3
/-- Invalid opcode. -/
abbrev vUD : Byte := 6
/-- Device not available. -/
abbrev vNM : Byte := 7
/-- Double fault. -/
abbrev vDF : Byte := 8
/-- Invalid TSS. -/
abbrev vTS : Byte := 10
/-- Segment not present. -/
abbrev vNP : Byte := 11
/-- Stack-segment fault. -/
abbrev vSS : Byte := 12
/-- General protection. -/
abbrev vGP : Byte := 13
/-- Page fault. -/
abbrev vPF : Byte := 14
/-- Floating-point error. -/
abbrev vMF : Byte := 16
/-- Alignment check. -/
abbrev vAC : Byte := 17
/-- Machine check. -/
abbrev vMC : Byte := 18

/-- A fault with a vector and an error code. -/
def Exc.fault (v : Byte) (err : Option Half) : Exc :=
  { vec := v, err := err, cr2 := none, dr6 := 0, clearGd := false, setRf := true, committed := false }

/-- Raise a fault. -/
def raise {α : Type} (v : Byte) (err : Option Half) : M α := throw (.exc (Exc.fault v err))

/-- `raise GP(0)`. -/
def gp0 {α : Type} : M α := raise vGP (some 0)

/-- `raise UD`. -/
def ud {α : Type} : M α := raise vUD none

/-- Stop with a refusal. -/
def refuse {α : Type} (r : Refusal) : M α := throw (.refused r)

/-- Raise unless the condition holds. -/
def check (c : Bool) (v : Byte) (err : Option Half) : M Unit := if c then pure () else raise v err

/-- Change the state. -/
def update (f : State → State) : M Unit := modify f

/-- Do something only under a condition. -/
def doWhen (c : Bool) (m : M Unit) : M Unit := if c then m else pure ()

/-- Draw a free bit (D3, log 2). -/
def drawBit : M Bool := do
  let s ← get
  set (s.setDraws (s.draws + 1))
  pure (Config.freeBit s.draws)

/-- Draw a free value of width `w`. -/
def drawBits (w : Nat) : M (BitVec w) := do
  let s ← get
  set (s.setDraws (s.draws + 1))
  pure (Config.freeBits w s.draws)

end Sys2Proof.Machine
end

