-- ==== Sys2Proof/Machine/Cache.lean ====
section
/-! DEFINITION. The two caches (R131 to R145, R153) and the bus cycles they cause (R185 to R199). Memory in the state is what
the processor's own accesses see; a data-cache line carries its tag, state and, where main memory differs from it, the 32
bytes main memory holds (`back`). Which line a fill replaces is a free choice (R133), so these operations change only tags
and states except where data is really lost or another master's write becomes visible. -/
namespace Sys2Proof.Machine

open Sys2Proof

/-- One byte of a translated access: linear and physical address, the protection of its page (R134), and the PCD and PWT of
R130. -/
structure Byt where
  la : Word
  pa : Nat
  us : Bool
  wr : Bool
  pcd : Bool
  pwt : Bool
  deriving DecidableEq, Repr

/-! ### The memory map -/

/-- The region of the memory map that holds a physical address (R12). -/
def regionAt (p : Platform) (pa : Nat) : Option Region :=
  p.regions.find? fun r => decide (r.lo ≤ pa) && decide (pa < r.hi)

/-- The map is RAM throughout. -/
def ramOnly (p : Platform) : Bool := p.regions.all fun r => r.kind == .ram

/-- SMIACT# selects no other memory anywhere: the two maps coincide (D38). -/
def oneMap (p : Platform) : Bool := p.regions.all fun r => !r.smm

/-- The address is ROM. -/
def romAt (p : Platform) (pa : Nat) : Bool :=
  match regionAt p pa with
  | none => false
  | some r => r.kind == .rom

/-- Nothing answers at the address (R200). -/
def silentAt (p : Platform) (pa : Nat) : Bool :=
  match regionAt p pa with
  | none => false
  | some r => r.kind == .silent

/-- SMIACT# selects the memory at the address (R705). -/
def smmWindow (p : Platform) (pa : Nat) : Bool :=
  match regionAt p pa with
  | none => false
  | some r => r.smm

/-- KEN# for an address (R111, R194, D20). -/
def State.kenAt (s : State) (pa : Nat) : Bool :=
  s.pins.ken && (match regionAt s.plat pa with | none => true | some r => r.ken)

/-- WB/WT# for an address (R111, R199, D20). -/
def State.wbwtAt (s : State) (pa : Nat) : Bool :=
  s.pins.wbwt && (match regionAt s.plat pa with | none => true | some r => r.wbwt)

/-! ### Lines and tags -/

/-- The line number of a physical address: 32-byte lines (R9). -/
def lineOf (pa : Nat) : Nat := pa / 32

/-- The linear tag an access gives its line (R134, D15). -/
def Byt.tag (b : Byt) : LineTag := { la := b.la.toNat / 32, us := b.us, wr := b.wr, pcd := b.pcd, pwt := b.pwt }

/-- The valid data-cache line of a physical address. -/
def Caches.dFind (c : Caches) (line : Nat) : Option DLine := c.dlines.find? fun l => l.line == line

/-- The valid instruction-cache line of a physical address. -/
def Caches.iFind (c : Caches) (line : Nat) : Option ILine := c.ilines.find? fun l => l.line == line

/-- Replace the data-cache line with the same tag. -/
def Caches.dPut (c : Caches) (l : DLine) : Caches :=
  { c with dlines := c.dlines.map fun x => if x.line == l.line then l else x }

/-- Replace the instruction-cache line with the same tag. -/
def Caches.iPut (c : Caches) (l : ILine) : Caches :=
  { c with ilines := c.ilines.map fun x => if x.line == l.line then l else x }

/-- Remove a data-cache line. -/
def Caches.dDrop (c : Caches) (line : Nat) : Caches :=
  { c with dlines := c.dlines.filter fun x => x.line != line }

/-- Remove a line from the instruction cache and the prefetch cache, which are snooped together (R144). -/
def Caches.iDrop (c : Caches) (line : Nat) : Caches :=
  { c with ilines := c.ilines.filter fun x => x.line != line, prefetch := c.prefetch.filter fun x => x.line != line }

/-- The prefetch cache holds bytes of a line (R141). -/
def Caches.prefetches (c : Caches) (line : Nat) : Bool := c.prefetch.any fun x => x.line == line

/-- The instruction cache or the prefetch cache holds the line (R144). -/
def Caches.holdsCode (c : Caches) (line : Nat) : Bool := (c.iFind line).isSome || c.prefetches line

/-- The prefetch cache holds the quadword of a physical address (R141). -/
def Caches.prefetched (c : Caches) (pa : Nat) : Bool :=
  c.prefetch.any fun x => x.line == lineOf pa && x.quads.getLsbD (pa / 8 % 4)

/-- Fetched quadwords pass through the prefetch cache, which keeps the two newest lines (R141). -/
def Caches.prefetchIn (c : Caches) (line : Nat) (quads : BitVec 4) : Caches :=
  let held := (c.prefetch.find? fun x => x.line == line).elim 0 (·.quads)
  { c with prefetch := ({ line := line, quads := held ||| quads } :: c.prefetch.filter fun x => x.line != line).take 2 }

/-- HWCR.DDC (R831). -/
def State.ddc (s : State) : Bool := s.msr.hwcr.getLsbD 7
/-- HWCR.DIC (R831). -/
def State.dic (s : State) : Bool := s.msr.hwcr.getLsbD 6

/-! ### Bus cycles -/

/-- BE7# to BE0# for `n` bytes from byte `i` of a quadword (R190). -/
def byteEnables (i n : Nat) : Byte := ~~~(BitVec.ofNat 8 ((2 ^ n - 1) * 2 ^ i))

/-- The address of the quadword of a byte (R190). -/
def quadOf (pa : Nat) : Word := BitVec.ofNat 32 (pa / 8 * 8)

/-- The bytes of a burst, in the order of its four transfers (R196). -/
def burstBytes (m : Memory) (line first : Nat) : List Byte :=
  (List.range 4).flatMap fun k => m.reads (line * 32 + 8 * (first ^^^ k)) 8

/-- PCD and PWT of accesses that paging does not translate (R130): those of CR3 with paging on. -/
def State.untranslated (s : State) : Bool × Bool :=
  if s.pg then (s.cd || s.cr.cr3.getLsbD 4, s.cr.cr3.getLsbD 3) else (s.cd, false)

/-- A cycle on memory data of `n` bytes within a quadword (R185, R186, R191). -/
def dataCycle (wr lock scyc : Bool) (b : Byt) (pcd : Bool) (data : List Byte) : Cycle :=
  { dc := true, mio := true, wr := wr, cache := false, burst := false, addr := quadOf b.pa,
    be := byteEnables (b.pa % 8) data.length, pcd := pcd, pwt := b.pwt, lock := lock, scyc := scyc, data := data }

/-- The writeback of a line: a burst of its 32 bytes (R197). -/
def writebackCycle (s : State) (line : Nat) : Cycle :=
  { dc := true, mio := true, wr := true, cache := true, burst := true, addr := BitVec.ofNat 32 (line * 32), be := 0,
    pcd := s.untranslated.1, pwt := s.untranslated.2, lock := false, scyc := false, data := s.mem.reads (line * 32) 32 }

/-- Record what the step has done (R191). -/
def note (e : CacheEvent) (s : State) : State := s.setCache { s.cache with events := e :: s.cache.events }

/-- The cycles of an event that is not a memory access, as the bus carries them (R185, R190, R209, R215). PCD and PWT of special
and acknowledge cycles are not driven. -/
def BusEvent.cycles : BusEvent → List Cycle
  | .special be addr data =>
    [{ dc := false, mio := false, wr := true, cache := false, burst := false, addr := addr, be := be, pcd := false,
       pwt := false, lock := false, scyc := false, data := toLe 4 data }]
  | .ioRead port n v pcd pwt =>
    [{ dc := true, mio := false, wr := false, cache := false, burst := false, addr := quadOf port.toNat,
       be := byteEnables (port.toNat % 8) n, pcd := pcd, pwt := pwt, lock := false, scyc := false, data := toLe n v }]
  | .ioWrite port n v pcd pwt =>
    [{ dc := true, mio := false, wr := true, cache := false, burst := false, addr := quadOf port.toNat,
       be := byteEnables (port.toNat % 8) n, pcd := pcd, pwt := pwt, lock := false, scyc := false, data := toLe n v }]
  | .intAck v =>
    let c : Cycle := { dc := false, mio := false, wr := false, cache := false, burst := false, addr := 0, be := 0xEF,
                       pcd := false, pwt := false, lock := true, scyc := false, data := [] }
    [c, { c with be := 0xFE, data := [v] }]

/-- Drive a cycle that is not a memory access, and log it. -/
def drive (e : BusEvent) (s : State) : State := (e.cycles.foldl (fun s c => note (.cycle c) s) s).setBus (e :: s.bus)

/-! ### Inquire cycles in a step -/

/-- The bus cycle of an event, done or aborted. -/
def CacheEvent.toCycle : CacheEvent → Option Cycle
  | .cycle c => some c
  | .snooped c => some c
  | .aborted c => some c
  | .store => none
  | .retag => none
  | .serial => none

/-- The bus cycle of an event, if it is one of the step's own. -/
def CacheEvent.own : CacheEvent → Option Cycle
  | .cycle c => some c
  | .snooped _ => none
  | .aborted _ => none
  | .store => none
  | .retag => none
  | .serial => none

/-- How many cycles of its own the step has driven. -/
def Caches.driven (c : Caches) : Nat := (c.events.filterMap CacheEvent.own).length

/-- The inquire cycle is at the line, has arrived by the end of a cycle, and has no answer yet. -/
def Snoop.meets (line driven : Nat) (q : Snoop) : Bool := q.reply.isNone && q.line == line && decide (q.after < driven)

/-- The inquire cycles that the step has met at a line. -/
def Caches.met (c : Caches) (line : Nat) : List Snoop := c.snoops.filter (Snoop.meets line c.driven)

/-- The inquire cycles that the step has met at a line that is not modified have their answer: HIT# or nothing. -/
def Caches.reply (c : Caches) (line : Nat) (hit : Snoop → Bool) : Caches :=
  { c with snoops := c.snoops.map fun q => if q.meets line c.driven then { q with reply := some (hit q, false) } else q }

/-- The writeback of a line is in progress: an inquire cycle at it is a modified hit, and no later one is sampled until HITM# is
negated, at the end of that writeback (R236, R239 a). -/
def meetWriteback (line driven : Nat) : List Snoop → List Snoop
  | [] => []
  | q :: qs =>
    if q.meets line driven then
      { q with reply := some (true, true) } :: qs.filter fun p => p.reply.isSome || decide (driven ≤ p.after)
    else q :: meetWriteback line driven qs

/-- HIT# and HITM# of an inquire cycle (R237). -/
def answer (hit hitm : Bool) (s : State) : State := s.setCache { s.cache with hit := hit, hitm := hitm }

/-- Drive the writeback of a line (R197). An inquire cycle at the line meanwhile reports a modified hit, and there is no
second writeback (R239 a). -/
def writeBack (line : Nat) (s : State) : State :=
  let t := note (.cycle (writebackCycle s line)) s
  t.setCache { t.cache with snoops := meetWriteback line t.cache.driven t.cache.snoops }

/-- Drive the writeback of a line if it is modified. -/
def writeBackIf (s : State) (l : DLine) : State := if l.mesi == .modified then writeBack l.line s else s

/-! ### Lines that go -/

/-- The bytes main memory holds become the bytes the processor sees: the line's own data is lost. -/
def restoreLine (m : Memory) (l : DLine) : Memory :=
  match l.back with
  | none => m
  | some bs => m.writes (l.line * 32) bs

/-- A clean line that leaves the cache uncovers what another master wrote (R152); a modified line is written back, which
leaves ROM as it was. -/
def uncover (p : Platform) (c : Caches) (m : Memory) (l : DLine) : Memory :=
  if c.foreign && (l.mesi != .modified || romAt p (l.line * 32)) then restoreLine m l else m

/-- Write a line back if modified, and invalidate it (R107, R129, R137). -/
def dropLine (line : Nat) (s : State) : State :=
  match s.cache.dFind line with
  | none => s
  | some l =>
    let t := writeBackIf s l
    (t.setMem (uncover s.plat s.cache s.mem l)).setCache (t.cache.dDrop line)

/-- Drop a line from every cache, as before a locked operation: written back if modified (R107, R207). -/
def evictLine (line : Nat) (s : State) : State :=
  let s := dropLine line s
  s.setCache (s.cache.iDrop line)

/-- A way no line of the set uses, if there is one (R133: an invalid way first). -/
def freeWay (used : List Nat) : Option Nat := [0, 1, 2, 3].find? fun w => !used.contains w

/-! ### Fills -/

/-- Put a line in a way of its set, replacing what is there: an invalid way first, else a free choice (R133, U4); a
modified victim is written back after the fill (R135, R197). -/
def placeD (l : DLine) (s : State) : State :=
  let mates := s.cache.dlines.filter fun x => x.line % 64 == l.line % 64
  match freeWay (mates.map (·.way)) with
  | some w => s.setCache { s.cache with dlines := { l with way := w } :: s.cache.dlines }
  | none =>
    let w := (Config.freeBits 2 s.draws).toNat
    let s := s.setDraws (s.draws + 1)
    let victims := mates.filter fun x => x.way == w
    let m := victims.foldl (uncover s.plat s.cache) s.mem
    let keep := s.cache.dlines.filter fun x => !(x.line % 64 == l.line % 64 && x.way == w)
    let s := victims.foldl writeBackIf s
    let s := if s.cache.foreign then s.setMem m else s
    s.setCache { s.cache with dlines := { l with way := w } :: keep }

/-- Fill a data-cache line. An inquire cycle at the line in progress is a hit, and the line ends shared or is not cached by
INV; once BOFF# has intervened it is a miss (R240, D22). -/
def fillD (l : DLine) (s : State) : State :=
  let hits := (s.cache.met l.line).filter fun q => !q.late
  let t := s.setCache (s.cache.reply l.line fun q => !q.late)
  if hits.any (·.inv) then t else placeD (if hits.isEmpty then l else { l with mesi := .shared }) t

/-- Put a line in the instruction cache (R132): 128 sets of four 32-byte lines. -/
def placeI (l : ILine) (s : State) : State :=
  let mates := s.cache.ilines.filter fun x => x.line % 128 == l.line % 128
  match freeWay (mates.map (·.way)) with
  | some w => s.setCache { s.cache with ilines := { l with way := w } :: s.cache.ilines }
  | none =>
    let w := (Config.freeBits 2 s.draws).toNat
    let s := s.setDraws (s.draws + 1)
    let keep := s.cache.ilines.filter fun x => !(x.line % 128 == l.line % 128 && x.way == w)
    s.setCache { s.cache with ilines := { l with way := w } :: keep }

/-- Fill an instruction-cache line. An inquire cycle at the line in progress is a hit; once BOFF# has intervened it may be a
hit or a miss, freely (R240). -/
def fillI (l : ILine) (s : State) : State :=
  let met := s.cache.met l.line
  if met.isEmpty then placeI l s
  else
    let hit (q : Snoop) : Bool := !(q.late && Config.freeBit s.draws)
    let t := (s.setCache (s.cache.reply l.line hit)).setDraws (s.draws + 1)
    if met.any fun q => hit q && q.inv then t else placeI l t

/-! ### Data accesses -/

/-- A fill that KEN# turned into a single read: an inquire cycle at its line is a hit all the same (R240). -/
def meetSingle (cacheable : Bool) (line : Nat) (s : State) : State :=
  if cacheable then s.setCache (s.cache.reply line fun q => !q.late) else s

/-- A data read of `n` bytes within a unit (R131, R134, R136, R144): a hit rewrites the linear tag; a cacheable miss fills a
line, exclusive if PWT is low and WB/WT# high, else shared; a miss that hits the instruction or prefetch cache is not cached. -/
def readLine (n : Nat) (b : Byt) (s : State) : State :=
  match s.cache.dFind (lineOf b.pa) with
  | some l =>
    if l.ltag = some b.tag then s
    else note .retag (s.setCache (s.cache.dPut { l with ltag := some b.tag }))
  | none =>
    let cacheable := !(s.cd || s.ddc || b.pcd || s.cache.holdsCode (lineOf b.pa))
    if cacheable && s.kenAt b.pa then
      let c := { dataCycle false false false b (s.cd || b.pcd) (s.mem.reads b.pa n) with
                 cache := true, burst := true, data := burstBytes s.mem (lineOf b.pa) (b.pa / 8 % 4) }
      fillD { line := lineOf b.pa, way := 0, ltag := some b.tag,
              mesi := if !b.pwt && s.wbwtAt b.pa then .exclusive else .shared, back := none } (note (.cycle c) s)
    else
      let c := { dataCycle false false false b (s.cd || b.pcd) (s.mem.reads b.pa n) with cache := cacheable }
      meetSingle cacheable (lineOf b.pa) (note (.cycle c) s)

/-- A data write, before its bytes are stored (R136, R138, R144): a write to a shared line goes through to memory, a
write to an exclusive or modified line stays in the cache, a miss allocates nothing and invalidates the line in the
instruction and prefetch caches. With CD = 1 and NW = 1 a hit does not go through (log 3). -/
def writeLine (lock scyc : Bool) (vs : List Byte) (b : Byt) (s : State) : State :=
  let out (s : State) : State := note (.cycle (dataCycle true lock scyc b (s.cd || b.pcd) vs)) s
  match s.cache.dFind (lineOf b.pa) with
  | none => out (s.setCache (s.cache.iDrop (lineOf b.pa)))
  | some l =>
    let held := l.back.getD (s.mem.reads (l.line * 32) 32)
    let rom := romAt s.plat b.pa
    let l := { l with ltag := some b.tag }
    if l.mesi == .shared && !(s.cd && s.nw) then
      let mesi := if !b.pwt && s.wbwtAt b.pa then Mesi.exclusive else .shared
      let c := s.cache.dPut { l with mesi := mesi, back := if rom then some held else l.back }
      out (s.setCache { c with foreign := c.foreign || rom })
    else
      let c := s.cache.dPut { l with mesi := .modified, back := some held }
      note .store (s.setCache { c with foreign := c.foreign || rom })

/-- The byte of main memory under a shared line that another master has changed follows a writethrough (R136, R152). -/
def patchBack (b : Byt) (v : Byte) (s : State) : State :=
  if s.cache.foreign && !romAt s.plat b.pa then
    match s.cache.dFind (lineOf b.pa) with
    | some l =>
      if l.mesi == .modified then s
      else s.setCache (s.cache.dPut { l with back := l.back.map (fun bs => bs.set (b.pa % 32) v) })
    | none => s
  else s

/-- Remember a byte that a store or another master replaces: a fetch may still see it (R145). -/
def addMark (m : CodeMark) (c : Caches) : Caches := if c.marks.contains m then c else { c with marks := m :: c.marks }

/-- Remember the byte a store replaces. -/
def markCode (b : Byt) (s : State) : State :=
  s.setCache (addMark { pa := b.pa, la := some b.la, old := s.mem.read b.pa, jumped := false } s.cache)

/-- Store one byte of an access; a write that reaches ROM changes nothing (R12). -/
def storeByte (b : Byt) (v : Byte) (s : State) : State :=
  let s := patchBack b v (markCode b s)
  if romAt s.plat b.pa && (s.cache.dFind (lineOf b.pa)).isNone then s else s.setMem (s.mem.write b.pa v)

/-! ### Jumps, serialization, and the operations on whole caches -/

/-- A taken jump clears the prefetch cache (R141, R145 a, R800): with paging off nothing old remains; with paging on only a
fetch through another linear address than the store's may still see the old byte. -/
def jumped (s : State) : State :=
  let own := s.cache.marks.filter fun m => m.la.isSome
  let after := own.map fun m => { m with jumped := true }
  s.setCache { s.cache with marks := if s.pg then after else [], prefetch := [] }

/-- The pipeline is flushed, as by a special cycle or an interrupt acknowledge (R151): nothing fetched later is old (R145 b). -/
def dropMarks (s : State) : State := s.setCache { s.cache with marks := [], prefetch := [] }

/-- A serializing instruction (R151): the same, and it waits for EWBE# (R147). -/
def serialize (s : State) : State := note .serial (dropMarks s)

/-- Invalidate the linear tags of both caches, with the protection bits copied beside them (R134, D15). -/
def dropLinearTags (s : State) : State :=
  let ds := s.cache.dlines.map fun l => { l with ltag := none }
  let is := s.cache.ilines.map fun l => { l with ltag := none }
  s.setCache { s.cache with dlines := ds, ilines := is }

/-- INVD (R153): every line invalid, nothing written back, so modified data is lost (R137, U25). -/
def invalidateCaches (s : State) : State :=
  (s.setMem (s.cache.dlines.foldl restoreLine s.mem)).setCache
    { s.cache with dlines := [], ilines := [], foreign := false }

/-- Every line invalid, with nothing left to write back: the end of WBINVD and FLUSH# (R153). -/
def emptyCaches (s : State) : State :=
  let m := if s.cache.foreign then s.cache.dlines.foldl (uncover s.plat s.cache) s.mem else s.mem
  (s.setMem m).setCache { s.cache with dlines := [], ilines := [], foreign := false }

/-! ### Instruction fetches -/

/-- An instruction fetch of a byte (R132, R141, R144): a miss snoops the data cache, whose line is written back and
invalidated; a quadword the prefetch cache holds comes from there; else the line is filled if cacheable, or the quadword is
read (R105). -/
def fetchLine (b : Byt) (s : State) : State :=
  match s.cache.iFind (lineOf b.pa) with
  | some l =>
    if l.ltag = some b.tag then s
    else note .retag (s.setCache (s.cache.iPut { l with ltag := some b.tag }))
  | none =>
    let s := dropLine (lineOf b.pa) s
    let through (quads : BitVec 4) (s : State) : State := s.setCache (s.cache.prefetchIn (lineOf b.pa) quads)
    let cacheable := !(s.cd || s.dic || b.pcd)
    let c : Cycle := { dc := false, mio := true, wr := false, cache := cacheable, burst := false, addr := quadOf b.pa, be := 0,
                       pcd := s.cd || b.pcd, pwt := b.pwt, lock := false, scyc := false, data := s.mem.reads (b.pa / 8 * 8) 8 }
    if s.cache.prefetched b.pa then s
    else if cacheable && s.kenAt b.pa then
      fillI { line := lineOf b.pa, way := 0, ltag := some b.tag, bp := 0, code := none } (through 0b1111
        (note (.cycle { c with burst := true, data := burstBytes s.mem (lineOf b.pa) (b.pa / 8 % 4) }) s))
    else meetSingle cacheable (lineOf b.pa) (through (1 <<< (b.pa / 8 % 4)) (note (.cycle c) s))

/-- The byte an instruction fetch finds in the instruction cache or memory. -/
def fetchHeld (pa : Nat) (s : State) : Byte :=
  if s.cache.foreign then
    match s.cache.iFind (lineOf pa) with
    | some { code := some bs, .. } => bs.getD (pa % 32) (s.mem.read pa)
    | _ => s.mem.read pa
  else s.mem.read pa

/-- The changes whose old byte a fetch through this linear address may still see (R145 c). -/
def staleMarks (b : Byt) (s : State) : List CodeMark :=
  s.cache.marks.filter fun m => m.pa == b.pa && !(m.jumped && m.la == some b.la)

/-- The byte fetched: an old or the new one, freely, for each change not yet followed by a jump (R145 c, U3). -/
def fetchByte (b : Byt) : M Byte := do
  update (fetchLine b)
  let s ← get
  pickByte (fetchHeld b.pa s) (staleMarks b s)
where
  /-- Choose between the current byte and the old bytes. -/
  pickByte (now : Byte) : List CodeMark → M Byte
    | [] => pure now
    | m :: ms => do
      let old ← drawBit
      if old then pure m.old else pickByte now ms

/-! ### What another master sees and does -/

/-- The byte main memory holds, as another master reads it (R152, R241). -/
def State.mainByte (s : State) (pa : Nat) : Byte :=
  match s.biu.writeback with
  | some (line, bs) => if line = lineOf pa then bs.getD (pa % 32) 0 else under
  | none => under
where
  /-- Main memory under the data cache. -/
  under : Byte :=
    match s.cache.dFind (lineOf pa) with
    | some { back := some bs, .. } => bs.getD (pa % 32) (s.mem.read pa)
    | _ => s.mem.read pa

/-- An instruction-cache line keeps the bytes it held when memory changes under it (R152). -/
def ILine.keep (m : Memory) (l : ILine) : ILine := { l with code := some (l.code.getD (m.reads (l.line * 32) 32)) }

/-- The line keeps its bytes where it holds the address. -/
def keepCode (pa : Nat) (s : State) : State :=
  s.setCache { s.cache with
    ilines := s.cache.ilines.map fun l => if l.line == lineOf pa then l.keep s.mem else l }

/-- A snoop writeback waits: the bus is not the processor's, its transfers are not answered now, or EWBE# holds writes off
(R147, R200, R238). -/
def State.writebackWaits (s : State) : Bool :=
  s.pins.hold || s.pins.boff || s.pins.init || !s.pins.brdy || s.biu.hung || (s.biu.ewbeWait && !s.pins.ewbe)

/-- Drive a snoop writeback, as an event of a kind: a write on the bus like any other, for BREQ and EWBE# too (R147, R234, R238). -/
def driveSnooped (kind : Cycle → CacheEvent) (line : Nat) (s : State) : State :=
  (note (kind (writebackCycle s line)) s).setBiu
    { s.biu with want := true, ewbeWait := s.biu.ewbeWait || !s.pins.ewbe }

/-- The data-cache side of an inquire cycle (R137, R237): a modified line is written back, at once where the processor may
drive the bus, else when it gets it back (R238); then the line is shared or invalid. -/
def inquireData (line : Nat) (inv : Bool) (s : State) : State :=
  match s.cache.dFind line with
  | none => s
  | some l =>
    let modified := l.mesi == .modified
    let held := l.back.getD (s.mem.reads (line * 32) 32)
    let s :=
      if !modified then s
      else if s.writebackWaits then s.setBiu { s.biu with writeback := some (line, held) }
      else driveSnooped .snooped line s
    let rom := romAt s.plat (line * 32)
    if inv then (s.setMem (uncover s.plat s.cache s.mem l)).setCache (s.cache.dDrop line)
    else s.setCache (s.cache.dPut { l with mesi := .shared, back := if modified && !rom then none else l.back })

/-- The stale bytes of an instruction-cache line that goes: a fetch without a jump may still see them (R800). -/
def markLine (m : Memory) (l : ILine) (c : Caches) : Caches :=
  match l.code with
  | none => c
  | some bs =>
    (List.range 32).foldl (fun c k =>
      let old := bs.getD k (m.read (l.line * 32 + k))
      if old = m.read (l.line * 32 + k) then c
      else addMark { pa := l.line * 32 + k, la := none, old := old, jumped := false } c) c

/-- The instruction side: INV invalidates, in the prefetch cache too (R137, R141). -/
def inquireCode (line : Nat) (inv : Bool) (s : State) : State :=
  if !inv then s
  else
    match s.cache.iFind line with
    | none => s.setCache (s.cache.iDrop line)
    | some l => s.setCache (markLine s.mem l (s.cache.iDrop line))

/-- The line is modified in the data cache. -/
def State.modifiedLine (s : State) (line : Nat) : Bool :=
  match s.cache.dFind line with
  | some l => l.mesi == .modified
  | none => false

/-- An inquire cycle (R137, R139, R237). With CD = 1 and NW = 1 the invalidation is ignored (R138), and the line is treated as
without INV (log 3). A line that waits in the snoop writeback buffer is a modified hit without a second writeback (R239 a). DESIGN
CHOICE (log 35): a line that only the prefetch cache holds is no hit, as the table of R237 has it, though R141 says that inquire
cycles snoop the prefetch cache; INV drops it. -/
def snoopLine (line : Nat) (inv : Bool) (s : State) : State :=
  if s.biu.writeback.any (·.1 == line) then answer true true s
  else
    let inv := inv && !(s.cd && s.nw)
    let hitm := s.modifiedLine line
    let hit := (s.cache.dFind line).isSome || (s.cache.iFind line).isSome
    answer hit hitm (inquireCode line inv (inquireData line inv s))

/-! ### The inquire cycles of a step -/

/-- Two successive cycles belong to one locked operation: its reads come before its writes (R107, R215). -/
def Cycle.sameLock (c d : Cycle) : Bool := c.lock && d.lock && c.dc == d.dc && !(c.wr && !d.wr)

/-- Put something into the record of a step, oldest first, after so many of its own cycles; it is told the cycles before and after
it. -/
def insertAfter (f : Option Cycle → Option Cycle → CacheEvent) :
    Nat → Option Cycle → List CacheEvent → List CacheEvent
  | _, prev, [] => [f prev none]
  | 0, prev, e :: es => f prev ((e :: es).findSome? CacheEvent.own) :: e :: es
  | k + 1, prev, e :: es =>
    match e.own with
    | none => e :: insertAfter f (k + 1) prev es
    | some c => e :: insertAfter f k (some c) es

/-- A writeback that comes between two cycles: LOCK# stays asserted inside a locked operation (R232). -/
def writebackBetween (c : Cycle) (prev next : Option Cycle) : CacheEvent :=
  match prev, next with
  | some a, some b => .snooped { c with lock := a.sameLock b }
  | _, _ => .snooped c

/-- An inquire cycle of the step; its writeback comes after the cycles that were done when it arrived (R231, R232, R238). -/
def snoopDuring (q : Snoop) (s : State) : State :=
  let t := snoopLine q.line q.inv s
  if t.cache.events.length = s.cache.events.length then t
  else
    let es := insertAfter (writebackBetween (writebackCycle s q.line)) q.after none s.cache.events.reverse
    t.setCache { t.cache with events := es.reverse }

/-- An inquire cycle goes back among those of the step. -/
def keepSnoop (q : Snoop) (s : State) : State := s.setCache { s.cache with snoops := s.cache.snoops ++ [q] }

/-- Answer those inquire cycles that have arrived, in order. One that comes between the same two cycles as an earlier modified hit
(`gap`), or while a writeback waits, finds HITM# asserted and is not sampled (R236). -/
def answerFrom (arrived : Snoop → Bool) (gap : Option Nat) : List Snoop → State → State
  | [], s => s
  | q :: qs, s =>
    if q.reply.isSome || !arrived q then answerFrom arrived gap qs (keepSnoop q s)
    else if s.biu.writeback.isSome || gap == some q.after then answerFrom arrived gap qs s
    else
      let t := snoopDuring q s
      answerFrom arrived (if t.cache.hitm then some q.after else gap) qs
        (keepSnoop { q with reply := some (t.cache.hit, t.cache.hitm) } t)

/-- Answer the inquire cycles of the step that have arrived. -/
def answerArrived (arrived : Snoop → Bool) (s : State) : State :=
  match s.cache.snoops with
  | [] => s
  | q :: qs => answerFrom arrived none (q :: qs) (s.setCache { s.cache with snoops := [] })

/-- The step is over: HIT# and HITM# are those of its last inquire cycle, APCHK# that of any (R212, R237). -/
def reportSnoops (s : State) : State :=
  match s.cache.snoops.getLast? with
  | none => s
  | some q =>
    s.setCache { s.cache with
      snoops := [], hit := q.reply.any (·.1), hitm := q.reply.any (·.2), apchk := s.cache.snoops.any (·.bad) }

/-- Answer every inquire cycle of the step. -/
def answerSnoops (s : State) : State := reportSnoops (answerArrived (fun _ => true) s)

/-! ### Copying everything back -/

/-- The modified lines that are still to be written back. -/
def State.flushTodo (s : State) (done : List Nat) : List Nat :=
  (s.cache.dlines.filter fun l => l.mesi == .modified && !done.contains l.line).map (·.line)

/-- One of the lines, freely: their order is not specified (R222, log 2). -/
def chooseLine (draw : Nat) : Nat → List Nat → Nat
  | first, [] => first
  | first, n :: t => if Config.freeBit draw then first else chooseLine (draw + 1) n t

/-- Copy a line back: memory holds it now, and it stays valid and modified for inquire cycles, so that a later one generates
another copyback (R152, R153, R222, R239 b). -/
def flushLine (line : Nat) (s : State) : State :=
  let t := writeBack line s
  match t.cache.dFind line with
  | none => t
  | some l => if romAt t.plat (line * 32) then t else t.setCache (t.cache.dPut { l with back := none })

/-- Copy one of the lines back. -/
def flushOne (first : Nat) (rest : List Nat) (s : State) : State :=
  flushLine (chooseLine s.draws first rest) (s.setDraws (s.draws + rest.length))

/-- WBINVD copies the modified lines back, at most so many. DESIGN CHOICE (log 2): their order, which R153 and R222 leave open, is
a free draw, as in FLUSH#. An inquire cycle is answered in its place, with every line still valid (R483). -/
def copyAll : Nat → List Nat → State → State
  | 0, _, s => s
  | n + 1, done, s =>
    let s := answerArrived (fun q => decide (q.after < s.cache.driven)) s
    match s.flushTodo done with
    | [] => s
    | first :: rest => copyAll n (chooseLine s.draws first rest :: done) (flushOne first rest s)

/-- The end of WBINVD and of a FLUSH# operation: an inquire cycle that arrives until now finds the lines valid, then all are
invalid; all are copied back, so that what another master wrote since then is uncovered (R153, R222, R483). -/
def endFlush (s : State) : State :=
  let s := answerArrived (fun q => decide (q.after ≤ s.cache.driven)) s
  emptyCaches (s.setCache { s.cache with dlines := s.cache.dlines.map fun l => { l with mesi := .shared } })

/-- WBINVD (R153): modified lines written back, then every line invalid. -/
def flushCaches (s : State) : State := endFlush (copyAll s.cache.dlines.length [] s)

/-! ### The two maps of SMIACT# -/

/-- The addresses whose bytes change hands when SMIACT# changes: those listed in either memory, and those of the lines
cached there. -/
def State.swapKeys (s : State) : List Nat :=
  let listed : List Nat := (s.mem ++ s.other).map fun c => c.1
  let cached : List Nat := s.cache.dlines.flatMap fun l => (List.range 32).map fun k => l.line * 32 + k
  (listed ++ cached).filter (smmWindow s.plat)

/-- A data-cache line keeps its bytes; main memory under it is now the other map's (R804). -/
def State.swapLine (s : State) (l : DLine) : DLine :=
  if (List.range 32).any fun k => smmWindow s.plat (l.line * 32 + k) then
    { l with back := some ((List.range 32).map fun k =>
        let a := l.line * 32 + k
        if smmWindow s.plat a then s.other.read a else s.mainByte a) }
  else l

/-- SMIACT# changes: in the regions it selects, the memory and the other memory change places. The caches are not flushed, and
their lines stay as they are (R705, R706, R804, D38). -/
def swapMaps (s : State) : State :=
  if oneMap s.plat then s
  else
    let keys := s.swapKeys
    let mem := keys.foldl (fun m k => if (s.cache.dFind (lineOf k)).isSome then m else m.write k (s.other.read k)) s.mem
    let other := keys.foldl (fun m k => m.write k (s.mainByte k)) s.other
    let is := s.cache.ilines.map fun l =>
      if (List.range 32).any fun k => smmWindow s.plat (l.line * 32 + k) then l.keep s.mem else l
    ((s.setMem mem).setOther other).setCache
      { s.cache with dlines := s.cache.dlines.map s.swapLine, ilines := is, foreign := true }

end Sys2Proof.Machine
end

