-- ==== Sys2Proof/Machine/Paging.lean ====
section
/-! DEFINITION. Page translation (R120 to R130): the walk with its A and D updates, the TLB as a permission to skip the
walk, and the page fault. -/
namespace Sys2Proof.Machine

open Sys2Proof

/-- Who makes an access and how: CPL 3 accesses are user accesses, a write is a write (R120). -/
structure Access where
  user : Bool
  write : Bool
  /-- An instruction fetch. -/
  code : Bool := false
  deriving DecidableEq, Repr

/-- A translated address with the protection of its page (R134) and the cacheability of R130. -/
structure Xlat where
  pa : Nat
  us : Bool
  wr : Bool
  pcd : Bool
  pwt : Bool
  deriving DecidableEq, Repr

/-- What a walk gives: a page fault with its P bit, or a translation. -/
inductive WalkOut
  | fault (present : Bool)
  | ok (e : TlbEntry)
  deriving DecidableEq, Repr

/-- The protection check of R125 on effective U/S and W/R bits. -/
def permits (a : Access) (wp us wr : Bool) : Bool :=
  (!a.user || us) && (!a.write || wr || (!a.user && !wp))

/-- A byte of main memory as the page walker reads it: past the cache, after a modified line was written back
(R129). -/
def walkerByte (s : State) (pa : Nat) : Byte :=
  if s.cache.foreign then
    match s.cache.dFind (lineOf pa) with
    | some { mesi := .modified, .. } => s.mem.read pa
    | some { back := some bs, .. } => bs.getD (pa % 32) (s.mem.read pa)
    | _ => s.mem.read pa
  else s.mem.read pa

/-- A page-directory or page-table entry. -/
def readEntry (s : State) (a : Nat) : Word :=
  ofLe 32 [walkerByte s a, walkerByte s (a + 1), walkerByte s (a + 2), walkerByte s (a + 3)]

/-- The bus cycle on an entry: four bytes, never cached, with the given PCD and PWT (R129, R208). -/
def entryCycle (wr lock : Bool) (a : Nat) (attr : Bool × Bool) (data : List Byte) : Cycle :=
  { dc := true, mio := true, wr := wr, cache := false, burst := false, addr := quadOf a,
    be := byteEnables (a % 8) 4, pcd := attr.1, pwt := attr.2, lock := lock, scyc := false, data := data }

/-- Reading an entry first writes a modified line that holds it back to memory and invalidates the line (R129, R137). -/
def snoopEntry (a : Nat) (attr : Bool × Bool) (s : State) : State :=
  let v := readEntry s a
  let s := if s.modifiedLine (lineOf a) then dropLine (lineOf a) s else s
  note (.cycle (entryCycle false false a attr (toLe 4 v))) s

/-- The locked read and write that set bits of an entry (R126, R208); the cached copies of its line are dropped (R107). -/
def writeEntry (a : Nat) (attr : Bool × Bool) (v : Word) (s : State) : State :=
  let old := readEntry s a
  let s := evictLine (lineOf a) s
  let s := note (.cycle (entryCycle true true a attr (toLe 4 v))) (note (.cycle (entryCycle false true a attr (toLe 4 old))) s)
  if romAt s.plat a then s else s.setMem (physWrites s.mem a (toLe 4 v))

/-- Set A, and D for a write where the entry maps a page, if not set already (R120, R126). -/
def withAD (e : Word) (dirty : Bool) : Word := putBit e 5 true ||| bitAt dirty 6

/-- Update an entry in memory when a bit changes. -/
def updateEntry (a : Nat) (attr : Bool × Bool) (old new : Word) (s : State) : State :=
  if old = new then s else writeEntry a attr new s

/-- PCD and PWT of the read of a page-table entry, and of an access to a 4-Mbyte page: those of the directory entry (R130). -/
def State.tableAttr (s : State) (pde : Word) : Bool × Bool := (s.cd || pde.getLsbD 4, pde.getLsbD 3)

/-- Physical address of the page-directory entry of a linear address (R120). -/
def pdeAddr (cr3 la : Word) : Nat := (cr3 &&& 0xFFFFF000).toNat + (la.extractLsb' 22 10).toNat * 4

/-- Physical address of the page-table entry of a linear address (R120). -/
def pteAddr (pde la : Word) : Nat := (pde &&& 0xFFFFF000).toNat + (la.extractLsb' 12 10).toNat * 4

/-- A finished walk: the state after its A and D updates, its result, and whether it left every entry and line as it was. -/
structure Walk where
  st : State
  out : WalkOut
  quiet : Bool

/-- The second level of the walk: the page-table entry (R120). -/
def walkTable (la : Word) (a : Access) (pde : Word) (quiet : Bool) (s : State) : Walk :=
  let pa2 := pteAddr pde la
  let pte := readEntry s pa2
  let quiet := quiet && !s.modifiedLine (lineOf pa2)
  let s := snoopEntry pa2 (s.tableAttr pde) s
  let us := pde.getLsbD 2 && pte.getLsbD 2
  let wr := pde.getLsbD 1 && pte.getLsbD 1
  if !pte.getLsbD 0 then { st := s, out := .fault false, quiet := quiet }
  else if !permits a s.wp us wr then { st := s, out := .fault true, quiet := quiet }
  else
    let new := withAD pte a.write
    { st := updateEntry pa2 (s.tableAttr pde) pte new s
      out := .ok { way := 0, page := (la.extractLsb' 12 20).toNat, big := false, base := (pte &&& 0xFFFFF000).toNat,
                   us := us, wr := wr, d := new.getLsbD 6, pcd := pte.getLsbD 4, pwt := pte.getLsbD 3,
                   g := pde.getLsbD 8 && pte.getLsbD 8 }
      quiet := quiet && decide (pte = new) }

/-- A 4-Mbyte page: the directory entry alone (R120, R123). -/
def walkBig (la : Word) (a : Access) (pde : Word) (quiet : Bool) (s : State) : Walk :=
  if pde.extractLsb' 12 10 ≠ 0 then { st := s, out := .fault true, quiet := quiet }
  else if !permits a s.wp (pde.getLsbD 2) (pde.getLsbD 1) then { st := s, out := .fault true, quiet := quiet }
  else
    let new := withAD pde a.write
    { st := updateEntry (pdeAddr s.cr.cr3 la) s.untranslated pde new s
      out := .ok { way := 0, page := (la.extractLsb' 22 10).toNat, big := true, base := (pde &&& 0xFFC00000).toNat,
                   us := pde.getLsbD 2, wr := pde.getLsbD 1, d := new.getLsbD 6, pcd := pde.getLsbD 4,
                   pwt := pde.getLsbD 3, g := pde.getLsbD 8 }
      quiet := quiet && decide (pde = new) }

/-- The page walk (R120): directory entry, its A bit, then the table entry. -/
def walk (la : Word) (a : Access) (s : State) : Walk :=
  let pa1 := pdeAddr s.cr.cr3 la
  let pde := readEntry s pa1
  let quiet := !s.modifiedLine (lineOf pa1)
  let s := snoopEntry pa1 s.untranslated s
  if !pde.getLsbD 0 then { st := s, out := .fault false, quiet := quiet }
  else if s.pse && pde.getLsbD 7 then walkBig la a pde quiet s
  else
    let new := withAD pde false
    walkTable la a pde (quiet && decide (pde = new)) (updateEntry pa1 s.untranslated pde new s)

/-- The TLB entry that maps a linear address, 4-Kbyte or 4-Mbyte (R128). -/
def Caches.tlbFind (c : Caches) (la : Word) : Option TlbEntry :=
  c.tlb.find? fun e => if e.big then e.page == la.toNat / 4194304 else e.page == la.toNat / 4096

/-- Two entries compete for the same ways: the 4-Kbyte TLB has 32 sets of four, the 4-Mbyte TLB one set of four (R9). -/
def TlbEntry.mate (e x : TlbEntry) : Bool := x.big == e.big && (e.big || x.page % 32 == e.page % 32)

/-- Load a translation, in place of an older one of the same page: into a free way, else over a way freely chosen (R9,
R128). -/
def loadTlb (e : TlbEntry) (s : State) : State :=
  let others := s.cache.tlb.filter fun x => !(x.page == e.page && x.big == e.big)
  match freeWay ((others.filter e.mate).map (·.way)) with
  | some w => s.setCache { s.cache with tlb := { e with way := w } :: others }
  | none =>
    let w := (Config.freeBits 2 s.draws).toNat
    (s.setDraws (s.draws + 1)).setCache
      { s.cache with tlb := { e with way := w } :: others.filter fun x => !(e.mate x && x.way == w) }

/-- The address an entry gives. -/
def TlbEntry.xlat (e : TlbEntry) (la : Word) : Xlat :=
  { pa := e.base + (if e.big then la.toNat % 4194304 else la.toNat % 4096), us := e.us, wr := e.wr, pcd := e.pcd,
    pwt := e.pwt }

/-- What an access through a cached entry gives: none when the walk is needed to set D (R126). -/
def TlbEntry.use (e : TlbEntry) (a : Access) (wp : Bool) : Option WalkOut :=
  if !permits a wp e.us e.wr then some (.fault true)
  else if a.write && !e.d then none
  else some (.ok e)

/-- Two ways to translate an address agree: the same fault, or the same entry. -/
def WalkOut.agrees : WalkOut → WalkOut → Bool
  | .fault p, .fault q => p == q
  | .ok e, .ok f => decide ({ e with way := 0 } = { f with way := 0 })
  | _, _ => false

/-- The page fault of an access (R127): bit 0 protection, bit 1 write, bit 2 user. -/
def pageFault (la : Word) (a : Access) (present : Bool) : Exc :=
  { vec := vPF, err := some ((bitAt present 0 ||| bitAt a.write 1 ||| bitAt a.user 2).extractLsb' 0 16),
    cr2 := some la, dr6 := 0, clearGd := false, setRf := true, committed := false }

/-- Finish a translation: load the TLB, or raise the page fault. -/
def finishWalk (la : Word) (a : Access) (w : Walk) : M Xlat :=
  match w.out with
  | .fault p => do
    set w.st
    throw (.exc (pageFault la a p))
  | .ok e => do
    set (loadTlb e w.st)
    pure (e.xlat la)

/-- Finish through a cached entry: nothing changes. -/
def finishTlb (la : Word) (a : Access) : WalkOut → M Xlat
  | .fault p => throw (.exc (pageFault la a p))
  | .ok e => pure (e.xlat la)

/-- Translate through the TLB and the page tables (R120). A cached translation may be used or may have been replaced: where
that makes a difference the choice is free (R128). -/
def translatePaged (la : Word) (a : Access) : M Xlat := do
  let s ← get
  let w := walk la a s
  match s.cache.tlbFind la with
  | none => finishWalk la a w
  | some e =>
    match e.use a s.wp with
    | none => finishWalk la a w
    | some out =>
      if w.quiet && w.out.agrees out then finishTlb la a out
      else do
        let hit ← drawBit
        if hit then finishTlb la a out else finishWalk la a { w with st := w.st.setDraws (w.st.draws + 1) }

/-- The line number of a linear address is that of a linear tag. -/
def tagged (la : Word) : Option LineTag → Bool
  | none => false
  | some t => t.la == la.toNat / 32

/-- What a linear tag makes of an address. -/
def LineTag.xlat (t : LineTag) (line : Nat) (la : Word) : Xlat :=
  { pa := line * 32 + la.toNat % 32, us := t.us, wr := t.wr, pcd := t.pcd, pwt := t.pwt }

/-- A read that hits the linear tag of a cached line, which holds the translation and the protection of its page as they
were; writes use the physical tags (R134, D15). -/
def Caches.lineXlat (c : Caches) (la : Word) (a : Access) : Option Xlat :=
  if a.write then none
  else if a.code then
    match c.ilines.find? fun l => tagged la l.ltag with
    | some { ltag := some t, line := n, .. } => some (t.xlat n la)
    | _ => none
  else
    match c.dlines.find? fun l => tagged la l.ltag with
    | some { ltag := some t, line := n, .. } => some (t.xlat n la)
    | _ => none

/-- Translate a linear address (R100, R120). A read that hits the linear tag of a line may be served by the line, with the
protection bits copied into it, or may go through the TLB: the choice is free (R134, D15). Where those bits forbid the access the
TLB is accessed, which alone issues a page fault (R125). -/
def translate (la : Word) (a : Access) : M Xlat := do
  let s ← get
  if !s.pg then pure { pa := la.toNat, us := true, wr := true, pcd := s.cd, pwt := false }
  else
    match s.cache.lineXlat la a with
    | none => translatePaged la a
    | some x => do
      let hit ← drawBit
      if hit && permits a s.wp x.us x.wr then pure x else translatePaged la a

/-- A load of CR3 (R128, R134): every entry goes but the global ones when CR4.GPE is 1. -/
def flushTlb (s : State) : State :=
  s.setCache { s.cache with tlb := if s.gpe then s.cache.tlb.filter (·.g) else [] }

/-- Every entry goes, global ones too (RESET, INIT, PG toggled, SMM entry and RSM: R128, R781). -/
def flushTlbAll (s : State) : State := s.setCache { s.cache with tlb := [] }

/-- INVLPG (R153): the entry of one address, global or not, and the linear tags of its page (D15). -/
def flushPage (la : Word) (s : State) : State :=
  let size := match s.cache.tlbFind la with
    | some { big := true, .. } => 4194304
    | _ => 4096
  let drop (t : Option LineTag) : Option LineTag := t.filter fun t => t.la * 32 / size != la.toNat / size
  let tlb := s.cache.tlb.filter fun e => !(if e.big then e.page == la.toNat / 4194304 else e.page == la.toNat / 4096)
  s.setCache { s.cache with
    tlb := tlb
    dlines := s.cache.dlines.map fun l => { l with ltag := drop l.ltag }
    ilines := s.cache.ilines.map fun l => { l with ltag := drop l.ltag } }

end Sys2Proof.Machine
end

