-- ==== Sys2Proof/Machine/Access.lean ====
section
/-! DEFINITION. Data accesses: segment checks (R112), alignment check (R617), translation, data breakpoints (R672),
cache effects, bytes. An access is opened first, with every check that can fail; the bytes move afterwards, so that a
faulting instruction has stored nothing (R620, D11). -/
namespace Sys2Proof.Machine

open Sys2Proof

/-- The kinds of access of R112; those of the stack operations of R440 apart. -/
inductive Kind
  | read | write | pop | push | execute
  deriving DecidableEq, Repr

/-- The access writes. -/
def Kind.writes : Kind → Bool
  | .read => false
  | .write => true
  | .pop => false
  | .push => true
  | .execute => false

/-- A20M# masks bit 20 of every linear address in Real mode only (R67, R112). -/
def State.maskA20 (s : State) (la : Word) : Word :=
  if s.pins.a20m && s.mode == .real then putBit la 20 false else la

/-- The linear address of an offset in a segment (R112 step 3 and 4). -/
def State.linear (s : State) (seg : Seg) (off : Word) : Word := s.maskA20 ((s.seg.get seg).base + off)

/-- The bytes from `off` lie within the limit of a segment in Protected mode (R112). -/
def SegReg.inLimit (r : SegReg) (off : Word) (n : Nat) : Bool :=
  if r.attr.expandDown then
    decide (r.byteLimit < off.toNat) && decide (off.toNat + n ≤ if r.attr.db then 4294967296 else 65536)
  else decide (off.toNat + n ≤ r.byteLimit + 1)

/-- The exception of a limit violation: SS(0) for SS, else GP(0) (R112). -/
def segVec : Seg → Byte
  | .ss => vSS
  | .es => vGP | .cs => vGP | .ds => vGP | .fs => vGP | .gs => vGP

/-- The exception of a null segment or one of the wrong type: GP(0) (R112), but SS(0) for a push or a pop (R440; log 8). -/
def Kind.accessVec : Kind → Byte
  | .pop => vSS
  | .push => vSS
  | .read => vGP
  | .write => vGP
  | .execute => vGP

/-- The type of segment that an access needs in Protected mode (R112). -/
def SegAttr.admits (a : SegAttr) : Kind → Bool
  | .read => a.readable
  | .write => a.writable
  | .pop => a.readable
  | .push => a.writable
  | .execute => true

/-- The checks of `Lin` (R112). -/
def segCheck (seg : Seg) (off : Word) (n : Nat) (k : Kind) : M Unit := do
  let s ← get
  let r := s.seg.get seg
  match s.mode with
  | .smm => pure ()
  | .real => check (decide (off.toNat + n ≤ r.byteLimit + 1)) (segVec seg) (some 0)
  | .v86 => check (decide (off.toNat + n ≤ r.byteLimit + 1)) (segVec seg) (some 0)
  | .prot => do
    check (!nullSel r.sel && r.attr.admits k) k.accessVec (some 0)
    check (r.inLimit off n) (segVec seg) (some 0)

/-- The alignment check of R617: CR0.AM, EFLAGS.AC and CPL 3, after the segment checks and before paging (D33). -/
def alignCheck (la : Word) (al : Nat) : M Unit := do
  let s ← get
  check (!(s.am && s.flags.ac && s.level == 3) || la.toNat % al == 0) vAC (some 0)

/-- The translation of the next byte: of its own on a new page, else the address after the last one. -/
def pageXlat (la : Word) (a : Access) : Option Xlat → M Xlat
  | none => translate la a
  | some x => if la.toNat % 4096 = 0 then translate la a else pure { x with pa := x.pa + 1 }

/-- Translate `k` bytes, once for each page, low page first (D11). `la` gives the linear address of each byte. -/
def spanBytes (a : Access) (la : Nat → Word) : Nat → Nat → Option Xlat → M (List Byt)
  | 0, _, _ => pure []
  | k + 1, i, prev => do
    let x ← pageXlat (la i) a prev
    let rest ← spanBytes a la k (i + 1) (some x)
    pure ({ la := la i, pa := x.pa, us := x.us, wr := x.wr, pcd := x.pcd, pwt := x.pwt } :: rest)

/-- Translate the `n` bytes at an offset of a segment. -/
def xlatSeg (seg : Seg) (off : Word) (n : Nat) (a : Access) : M (List Byt) := do
  let s ← get
  spanBytes a (fun i => s.linear seg (off + BitVec.ofNat 32 i)) n 0 none

/-! ### Breakpoints -/

/-- A breakpoint register by number (R40). -/
def DebugRegs.addr (d : DebugRegs) (n : Nat) : Word :=
  match n with
  | 0 => d.dr0 | 1 => d.dr1 | 2 => d.dr2 | _ => d.dr3

/-- Breakpoint `n` is enabled (R42, R670). -/
def DebugRegs.enabled (d : DebugRegs) (n : Nat) : Bool := d.dr7.getLsbD (2 * n) || d.dr7.getLsbD (2 * n + 1)

/-- The R/W field of breakpoint `n` (R42). -/
def DebugRegs.rw (d : DebugRegs) (n : Nat) : BitVec 2 := d.dr7.extractLsb' (16 + 4 * n) 2

/-- The LEN field of breakpoint `n` (R42). -/
def DebugRegs.len (d : DebugRegs) (n : Nat) : BitVec 2 := d.dr7.extractLsb' (18 + 4 * n) 2

/-- The bytes a LEN field covers; 10b is undefined (R42). -/
def lenBytes (l : BitVec 2) : Option Nat :=
  match l.toNat with
  | 0 => some 1 | 1 => some 2 | 3 => some 4 | _ => none

/-- Address `a` lies in the aligned range of breakpoint `n`; none where LEN is undefined (R672). -/
def DebugRegs.covers (d : DebugRegs) (n : Nat) (a : Word) : Option Bool :=
  match lenBytes (d.len n) with
  | none => none
  | some k => some (a.toNat / k == (d.addr n).toNat / k)

/-- Record that the instruction matched breakpoint `n`. -/
def State.hit (s : State) (n : Nat) : State :=
  match n with
  | 0 => s.setScr { s.scr with hit0 := true }
  | 1 => s.setScr { s.scr with hit1 := true }
  | 2 => s.setScr { s.scr with hit2 := true }
  | _ => s.setScr { s.scr with hit3 := true }

/-- Match breakpoint `n` against the addresses of an access; with LEN 10b the match is free (log 2). -/
def noteOne (n : Nat) (addrs : List Word) : M Unit := do
  let s ← get
  match lenBytes (s.dr.len n) with
  | none => do
    let b ← drawBit
    if b then update (·.hit n) else pure ()
  | some _ => if addrs.any fun a => s.dr.covers n a == some true then update (·.hit n) else pure ()

/-- A data access matches breakpoint `n` by its type: 01 writes, 11 reads and writes (R672). -/
def State.watches (s : State) (write : Bool) (n : Nat) : Bool :=
  s.dr.enabled n && (s.dr.rw n == 3 || (write && s.dr.rw n == 1))

/-- Note the data breakpoints an access matches (R672). -/
def noteData (write : Bool) (bs : List Byt) : M Unit := do
  let s ← get
  if s.dr.dr7.extractLsb' 0 8 = 0 then pure ()
  else do
    doWhen (s.watches write 0) (noteOne 0 (bs.map (·.la)))
    doWhen (s.watches write 1) (noteOne 1 (bs.map (·.la)))
    doWhen (s.watches write 2) (noteOne 2 (bs.map (·.la)))
    doWhen (s.watches write 3) (noteOne 3 (bs.map (·.la)))

/-! ### Opening an access -/

/-- User accesses are those at CPL 3 (R125). -/
def State.access (s : State) (write : Bool) : Access := { user := s.level == 3, write := write }

/-- Check and translate a data access of `n` bytes with natural alignment `al`. -/
def openAs (k : Kind) (seg : Seg) (off : Word) (n al : Nat) : M (List Byt) := do
  segCheck seg off n k
  let s ← get
  alignCheck (s.linear seg off) al
  let bs ← xlatSeg seg off n (s.access k.writes)
  noteData k.writes bs
  pure bs

/-- Check and translate a data read. -/
def openRead (seg : Seg) (off : Word) (n al : Nat) : M (List Byt) := openAs .read seg off n al

/-- Check and translate a data write. -/
def openWrite (seg : Seg) (off : Word) (n al : Nat) : M (List Byt) := openAs .write seg off n al

/-- Check and translate a read-modify-write: the read faults first and reports a read, then the write (R127). -/
def openRmw (seg : Seg) (off : Word) (n al : Nat) : M (List Byt) := do
  segCheck seg off n .write
  let s ← get
  alignCheck (s.linear seg off) al
  let _ ← xlatSeg seg off n (s.access false)
  let bs ← xlatSeg seg off n (s.access true)
  noteData true bs
  pure bs

/-! ### Moving the bytes -/

/-- What one bus cycle of an access does not cross: an aligned quadword for 8-byte and 10-byte operands, an aligned doubleword
for the others (R103, R192; log 4). -/
def busUnit (n : Nat) : Nat := if n = 8 ∨ n = 10 then 8 else 4

/-- How many of the next bytes of an access are in the same unit. -/
def unitRun (u : Nat) (b : Byt) (bs : List Byt) : Nat := (bs.takeWhile fun x => x.pa / u == b.pa / u).length

/-- The access does not fit in one unit: its bus cycles are split (R192, R207). -/
def splits (u : Nat) : List Byt → Bool
  | [] => false
  | b :: bs => bs.any fun x => x.pa / u != b.pa / u

/-- Do something with each unit of an access, low address first (R103): its first byte, and how many bytes it has. -/
def eachUnit (u : Nat) (f : Nat → Byt → State → State) : Option Nat → List Byt → State → State
  | _, [], s => s
  | prev, b :: bs, s =>
    if prev = some (b.pa / u) then eachUnit u f prev bs s
    else eachUnit u f (some (b.pa / u)) bs (f (1 + unitRun u b bs) b s)

/-- The read of a locked operation. -/
def lockedRead (scyc : Bool) (n : Nat) (b : Byt) (s : State) : State :=
  note (.cycle (dataCycle false true scyc b (s.cd || b.pcd) (s.mem.reads b.pa n))) s

/-- What the caches and the bus do at a read of opened bytes (R136). -/
def touchLines (bs : List Byt) (s : State) : State := eachUnit (busUnit bs.length) readLine none bs s

/-- Before a locked operation every line it uses is written back and invalidated, in whichever cache it is (R107, R207). -/
def evictLines (bs : List Byt) (s : State) : State :=
  eachUnit (busUnit bs.length) (fun _ b s => evictLine (lineOf b.pa) s) none bs s

/-- What they do at the read of a locked operation: the lines go first, then all its read cycles come under LOCK#. -/
def lockLines (bs : List Byt) (s : State) : State :=
  eachUnit (busUnit bs.length) (lockedRead (splits (busUnit bs.length) bs)) none bs (evictLines bs s)

/-- The bytes of an opened access, as memory holds them. -/
def State.bytesAt (s : State) (bs : List Byt) : List Byte := bs.map fun b => s.mem.read b.pa

/-- Read the bytes of an opened access. -/
def peek (bs : List Byt) : M (List Byte) := do
  update (touchLines bs)
  let s ← get
  pure (s.bytesAt bs)

/-- Read the bytes of an opened locked access: never cached (R107). -/
def peekLocked (bs : List Byt) : M (List Byte) := do
  update (lockLines bs)
  let s ← get
  pure (s.bytesAt bs)

/-- Read the bytes of an opened access, locked or not. -/
def peekAs (lock : Bool) (bs : List Byt) : M (List Byte) := if lock then peekLocked bs else peek bs

/-- Store bytes, with one cache write or bus cycle for each unit, low address first (R103, R136). -/
def storeBytes (u : Nat) (lock scyc : Bool) : Option Nat → List (Byt × Byte) → State → State
  | _, [], s => s
  | prev, (b, v) :: t, s =>
    let s := if prev = some (b.pa / u) then s
      else writeLine lock scyc (v :: (t.takeWhile fun x => x.1.pa / u == b.pa / u).map (·.2)) b s
    storeBytes u lock scyc (some (b.pa / u)) t (storeByte b v s)

/-- Write the bytes of an opened access, as the second half of a locked operation or not. -/
def pokeAs (lock : Bool) (bs : List Byt) (vs : List Byte) : M Unit :=
  update (storeBytes (busUnit bs.length) lock (lock && splits (busUnit bs.length) bs) none (bs.zip vs))

/-- Write the bytes of an opened access. -/
def poke (bs : List Byt) (vs : List Byte) : M Unit := pokeAs false bs vs

/-- Read `n` bytes through a segment. -/
def loadBytes (seg : Seg) (off : Word) (n al : Nat) : M (List Byte) := do
  let bs ← openRead seg off n al
  peek bs

/-- Read `n` bytes of the stack (R440). -/
def popBytes (off : Word) (n : Nat) : M (List Byte) := do
  let bs ← openAs .pop .ss off n n
  peek bs

/-- Write bytes through a segment. -/
def writeBytes (seg : Seg) (off : Word) (al : Nat) (vs : List Byte) : M Unit := do
  let bs ← openWrite seg off vs.length al
  poke bs vs

/-! ### Implicit system accesses: descriptor tables, TSS, vector tables. Supervisor, no segment or alignment check, no
data breakpoint (R120, R617, R672). -/

/-- Translate the `n` bytes of a system access at a linear address. -/
def openSys (la : Word) (n : Nat) (write : Bool) : M (List Byt) := do
  let s ← get
  spanBytes { user := false, write := write } (fun i => s.maskA20 (la + BitVec.ofNat 32 i)) n 0 none

/-- Read `n` bytes of a system structure. -/
def sysRead (la : Word) (n : Nat) : M (List Byte) := do
  let bs ← openSys la n false
  peek bs

/-- Read a system value of width `w`. -/
def sysVal (w : Nat) (la : Word) (n : Nat) : M (BitVec w) := do
  let bs ← sysRead la n
  pure (ofLe w bs)

/-- Read the eight bytes of a descriptor or gate: two 4-byte reads (R106). -/
def sysDesc (la : Word) : M Qword := do
  let bs ← openSys la 8 false
  let lo ← peek (bs.take 4)
  let hi ← peek (bs.drop 4)
  pure (ofLe 64 (lo ++ hi))

/-- Change the second byte of an opened doubleword by a locked read and write of its four bytes: the access byte of a
descriptor (R106, R207). -/
def lockedUpdate (bs : List Byt) (f : Byte → Byte) : M Unit := do
  let vs ← peekLocked bs
  pokeAs true bs (vs.modify 1 f)

end Sys2Proof.Machine
end

