-- ==== Sys2Proof/Machine/Ops.lean ====
section
/-! DEFINITION. The operations the meanings share: the stack (R440), near and far transfers (R450, R646), descriptors and
segment loads (R641 to R644), the task switch (R645), taking an exception or interrupt (R620 to R628), and the
return from one (R340). -/
namespace Sys2Proof.Machine

open Sys2Proof

/-! ### The stack -/

/-- The stack pointer is ESP: only a 32-bit stack segment in Protected mode (R440). DESIGN CHOICE (log 52): R440 says of SMM
"unless overridden" without saying by what, and no prefix names a stack size: it is 16 bits there until CR0.PE is set. -/
def State.bigStack (s : State) : Bool :=
  match s.mode with
  | .prot => s.seg.ss.attr.db
  | .real => false
  | .v86 => false
  | .smm => false

/-- SPx: ESP, or SP extended (R440). -/
def spOf (big : Bool) (esp : Word) : Word := if big then esp else (esp.extractLsb' 0 16).setWidth 32

/-- Add to SPx: modulo 2^32, or modulo 2^16 with the upper half of ESP unchanged (R440). -/
def spAdd (big : Bool) (esp k : Word) : Word :=
  if big then esp + k else putHalf esp (esp.extractLsb' 0 16 + k.extractLsb' 0 16)

/-- An item to push: how many bytes, and the value. -/
structure PushItem where
  n : Nat
  v : Word
  deriving DecidableEq, Repr

/-- A 16-bit item. -/
def item16 (v : Half) : PushItem := { n := 2, v := v.setWidth 32 }

/-- An item of the operand size: 16 bits of the value, or all 32. -/
def itemOf (o : OSz) (v : Word) : PushItem := { n := o.bytes, v := v }

/-- Open the writes of several pushes, the first one highest (R440): all checks, no bytes. -/
def openPushes (big : Bool) : Word → List PushItem → M (List (List Byt × List Byte) × Word)
  | esp, [] => pure ([], esp)
  | esp, it :: its => do
    let esp' := spAdd big esp (0 - BitVec.ofNat 32 it.n)
    let bs ← openAs .push .ss (spOf big esp') it.n it.n
    let (rest, last) ← openPushes big esp' its
    pure ((bs, toLe it.n it.v) :: rest, last)

/-- Store the bytes of opened pushes. -/
def pokeAll : List (List Byt × List Byte) → M Unit
  | [] => pure ()
  | (bs, vs) :: t => do
    poke bs vs
    pokeAll t

/-- Store opened pushes and move the stack pointer. -/
def commitPushes (w : List (List Byt × List Byte) × Word) : M Unit := do
  pokeAll w.1
  update (·.putReg .esp w.2)

/-- Push items: all of them or none (R440). -/
def pushItems (its : List PushItem) : M Unit := do
  let s ← get
  let w ← openPushes s.bigStack s.gpr.esp its
  commitPushes w

/-- Read `n` bytes of the stack `i` bytes above its top, without popping. -/
def stackAt (i n : Nat) : M Word := do
  let s ← get
  let bs ← popBytes (spOf s.bigStack (spAdd s.bigStack s.gpr.esp (BitVec.ofNat 32 i))) n
  pure (ofLe 32 bs)

/-- Add to the stack pointer. -/
def moveSp (k : Nat) : M Unit := update fun s => s.putReg .esp (spAdd s.bigStack s.gpr.esp (BitVec.ofNat 32 k))

/-- `popv` (R440). -/
def popv (o : OSz) : M Word := do
  let v ← stackAt 0 o.bytes
  moveSp o.bytes
  pure v

/-- `pushv` (R440). -/
def pushv (o : OSz) (v : Word) : M Unit := pushItems [itemOf o v]

/-! ### Taken branches -/

/-- Branch-trace messages are enabled (R833). -/
def State.tracing (s : State) : Bool := s.msr.hwcr.extractLsb' 1 3 = 1 && s.msr.hwcr.getLsbD 5

/-- A special bus cycle, which serializes (R151, R209). -/
def special (be : Byte) (addr : Word) (s : State) : State := dropMarks (drive (.special be addr 0) s)

/-- The mode bits of a branch-trace target (R211). DESIGN CHOICE (log 52): R211 names no bits for SMM; the model sends those of
Real mode there, and those of Protected mode once the handler has set CR0.PE. -/
def traceMode : Mode → Word
  | .v86 => 0x60000000
  | .prot => 0x40000000
  | .real => 0
  | .smm => 0

/-- The two messages of a taken branch from `cs` and the instruction's EIP to where the state now is (R850, D42). -/
def traceBranch (cs : Half) (s : State) : State :=
  if s.tracing then
    let src := BusEvent.special 0xDF (cs.setWidth 32 <<< 4) s.scr.start
    let dst := BusEvent.special 0xDF
      (0x80000000 ||| traceMode s.mode ||| bitAt s.seg.cs.attr.db 28 ||| (s.seg.cs.sel.setWidth 32 <<< 4)) s.eip
    dropMarks (drive dst (drive src s))
  else s

/-- The messages of an interrupt, an exception, a task switch or RSM: whether there are any is left open (R850, N52,
log 2). -/
def openTrace (cs : Half) (s : State) : State :=
  if s.tracing then
    let s' := s.setDraws (s.draws + 1)
    if Config.freeBit s.draws then traceBranch cs s' else s'
  else s

/-- Truncation of a target by the operand size (R450). -/
def truncTarget (o : OSz) (t : Word) : Word :=
  match o with
  | .o16 => t &&& 0x0000FFFF
  | .o32 => t

/-- A target lies within the code segment (R450). -/
def State.targetOk (s : State) (t : Word) : Bool := decide (t.toNat ≤ s.seg.cs.byteLimit)

/-- Set EIP to a checked target: a taken branch. DESIGN CHOICE (log 56): also one whose target is the next sequential instruction
sends the messages of R850, whose definition leaves it out and whose list has it. -/
def goto (t : Word) (s : State) : State := traceBranch s.seg.cs.sel (jumped (s.setEip t))

/-- A near transfer (R450). -/
def jumpNear (o : OSz) (t : Word) : M Unit := do
  let s ← get
  let t := truncTarget o t
  check (s.targetOk t) vGP (some 0)
  update (goto t)

/-! ### Descriptors -/

/-- A descriptor as read: its linear address and its eight bytes as a number (R641, R642). -/
structure Desc where
  la : Word
  q : Qword
  deriving DecidableEq, Repr

/-- Access byte and flags of a descriptor (R641). -/
def Desc.attr (d : Desc) : SegAttr :=
  { typ := d.q.extractLsb' 40 4, s := d.q.getLsbD 44, dpl := d.q.extractLsb' 45 2, p := d.q.getLsbD 47,
    avl := d.q.getLsbD 52, db := d.q.getLsbD 54, g := d.q.getLsbD 55 }
/-- Base of a segment descriptor (R641). -/
def Desc.base (d : Desc) : Word := d.q.extractLsb' 56 8 ++ d.q.extractLsb' 16 24
/-- Limit field of a segment descriptor (R641). -/
def Desc.limit (d : Desc) : BitVec 20 := d.q.extractLsb' 48 4 ++ d.q.extractLsb' 0 16
/-- Selector of a gate (R642). -/
def Desc.gateSel (d : Desc) : Half := d.q.extractLsb' 16 16
/-- Offset of a gate: 16 bits for types 6 and 7, 32 bits for 14 and 15 (R642). -/
def Desc.gateOff (d : Desc) : Word :=
  if d.q.getLsbD 43 then d.q.extractLsb' 48 16 ++ d.q.extractLsb' 0 16 else (d.q.extractLsb' 0 16).setWidth 32
/-- System type number (R642). -/
def Desc.sysType (d : Desc) : Nat := d.attr.typ.toNat
/-- DPL as a number. -/
def Desc.dpl (d : Desc) : Nat := d.attr.dpl.toNat

/-- The register a descriptor loads; the Accessed or Busy bit is given. -/
def Desc.reg (d : Desc) (sel : Half) (typ : BitVec 4) : SegReg :=
  { sel := sel, base := d.base, limit := d.limit, attr := { d.attr with typ := typ } }
/-- The register a code or data descriptor loads: Accessed is set (R113). -/
def Desc.segReg (d : Desc) (sel : Half) : SegReg := d.reg sel (d.attr.typ ||| 1)
/-- The byte limit of a descriptor (R641). -/
def Desc.byteLimit (d : Desc) : Nat := (d.segReg 0).byteLimit

/-- RPL of a selector (R644). -/
def rpl (sel : Half) : Nat := (sel.extractLsb' 0 2).toNat

/-- A selector with its RPL replaced by a level (R643). -/
def withRpl (sel : Half) (level : Nat) : Half := selErr sel ||| BitVec.ofNat 16 level

/-- Where a selector's descriptor is: none outside its table, or in an unusable LDT (R644). -/
def State.descAddr (s : State) (sel : Half) : Option Word :=
  let off := (sel.extractLsb' 3 13).toNat * 8
  if sel.getLsbD 2 then
    if nullSel s.sys.ldtr.sel then none
    else if off + 7 ≤ s.sys.ldtr.byteLimit then some (s.sys.ldtr.base + BitVec.ofNat 32 off) else none
  else if off + 7 ≤ s.sys.gdtr.limit.toNat then some (s.sys.gdtr.base + BitVec.ofNat 32 off) else none

/-- Read a descriptor, or raise the given exception when it lies outside its table (R641, R644). -/
def readDesc (sel : Half) (v : Byte) (code : Half) : M Desc := do
  let s ← get
  match s.descAddr sel with
  | none => raise v (some code)
  | some la => do
    let q ← sysDesc la
    pure { la := la, q := q }

/-- Open the doubleword of a descriptor that holds its access byte, for a locked read and write (R106, R207). -/
def openType (d : Desc) : M (List Byt) := openSys (d.la + 4) 4 true

/-- Open the locked update that sets the Accessed bit, if it is clear (R106, R113). -/
def openAccessed (d : Desc) : M (List Byt) := if d.attr.typ.getLsbD 0 then pure [] else openType d

/-- Carry out the opened update. -/
def setAccessed (bs : List Byt) : M Unit :=
  match bs with
  | [] => pure ()
  | b :: t => lockedUpdate (b :: t) (· ||| 1)

/-- A selector loaded null: the register is unusable (R644; the hidden part is log 9). -/
def SegReg.null (sel : Half) : SegReg :=
  { sel := sel, base := 0, limit := 0,
    attr := { typ := 0, s := false, dpl := 0, p := false, avl := false, db := false, g := false } }

/-! ### Segment loads -/

/-- An error code with the EXT bit (R619). -/
def withExt (code : Half) (ext : Bool) : Half := code ||| (if ext then 1 else 0)

/-- The type and privilege checks of a stack segment for level `level` (R113). -/
def stackSegOk (d : Desc) (sel : Half) (level : Nat) : Bool :=
  d.attr.writable && d.dpl == level && rpl sel == level

/-- The type and privilege checks of a data segment (R113); a conforming code segment has no privilege check (log 10). -/
def dataSegOk (d : Desc) (sel : Half) (level : Nat) : Bool :=
  d.attr.readable && (d.attr.conforming || decide (max level (rpl sel) ≤ d.dpl))

/-- Load SS in Protected mode for a level, with the vector of its type and privilege faults and EXT of the error codes given
(R113, R619, R645). -/
def loadStackSeg (sel : Half) (level : Nat) (vBad : Byte) (ext : Bool) : M Unit := do
  let code := withExt (selErr sel) ext
  check (!nullSel sel) vBad (some code)
  let d ← readDesc sel vBad code
  check (stackSegOk d sel level) vBad (some code)
  check d.attr.p vSS (some code)
  let a ← openAccessed d
  setAccessed a
  update (·.putSeg .ss (d.segReg sel))

/-- Load DS, ES, FS or GS in Protected mode (R113). -/
def loadDataSeg (r : Seg) (sel : Half) (level : Nat) (vBad : Byte) (ext : Bool) : M Unit := do
  if nullSel sel then update (·.putSeg r (SegReg.null sel))
  else do
    let code := withExt (selErr sel) ext
    let d ← readDesc sel vBad code
    check (dataSegOk d sel level) vBad (some code)
    check d.attr.p vNP (some code)
    let a ← openAccessed d
    setAccessed a
    update (·.putSeg r (d.segReg sel))

/-- `LoadSeg` (R644). -/
def loadSeg (r : Seg) (sel : Half) : M Unit := do
  let s ← get
  if s.realStyle then update (·.putSeg r ((s.seg.get r).realLoad sel))
  else if s.flags.vm then update (·.putSeg r (SegReg.v86 sel))
  else if r = .ss then loadStackSeg sel s.level vGP false
  else loadDataSeg r sel s.level vGP false

/-! ### Task switch -/

/-- Who switches tasks (R645). -/
inductive TaskSource
  | jmp | interrupt | iret
  deriving DecidableEq, Repr

/-- A TSS type is the 32-bit one (R642). -/
def tss32 (typ : BitVec 4) : Bool := typ.getLsbD 3

/-- The outgoing state as the 32-bit TSS holds it from offset 20h (R640): EIP to EDI. -/
def tssRegs32 (ret : Word) (img : Flags) (g : Gpr) : List Byte :=
  toLe 4 ret ++ toLe 4 img.toWord ++ toLe 4 g.eax ++ toLe 4 g.ecx ++ toLe 4 g.edx ++ toLe 4 g.ebx
    ++ toLe 4 g.esp ++ toLe 4 g.ebp ++ toLe 4 g.esi ++ toLe 4 g.edi

/-- The selectors of a 32-bit TSS in order, each with its offset (R640). -/
def tssSels32 (f : SegFile) : List (Nat × Half) :=
  [(0x48, f.es.sel), (0x4C, f.cs.sel), (0x50, f.ss.sel), (0x54, f.ds.sel), (0x58, f.fs.sel), (0x5C, f.gs.sel)]

/-- The outgoing state as the 16-bit TSS holds it from offset 0Eh (R640): IP to DS. -/
def tssRegs16 (ret : Word) (img : Flags) (g : Gpr) (f : SegFile) : List Byte :=
  toLe 2 ret ++ toLe 2 img.toWord ++ toLe 2 g.eax ++ toLe 2 g.ecx ++ toLe 2 g.edx ++ toLe 2 g.ebx
    ++ toLe 2 g.esp ++ toLe 2 g.ebp ++ toLe 2 g.esi ++ toLe 2 g.edi
    ++ toLe 2 f.es.sel ++ toLe 2 f.cs.sel ++ toLe 2 f.ss.sel ++ toLe 2 f.ds.sel

/-- Open the selector fields of the outgoing 32-bit TSS. -/
def openSels (base : Word) : List (Nat × Half) → M (List (List Byt × List Byte))
  | [] => pure []
  | (off, v) :: t => do
    let bs ← openSys (base + BitVec.ofNat 32 off) 2 true
    let rest ← openSels base t
    pure ((bs, toLe 2 v) :: rest)

/-- Open the writes that store the outgoing task (R645 steps 2 and 3). -/
def openOutgoing (ret : Word) (img : Flags) : M (List (List Byt × List Byte)) := do
  let s ← get
  let base := s.sys.tr.base
  if tss32 s.sys.tr.attr.typ then do
    let regs := tssRegs32 ret img s.gpr
    let bs ← openSys (base + 0x20) regs.length true
    let sels ← openSels base (tssSels32 s.seg)
    pure ((bs, regs) :: sels)
  else do
    let regs := tssRegs16 ret img s.gpr s.seg
    let bs ← openSys (base + 0x0E) regs.length true
    pure [(bs, regs)]

/-- A field of a TSS image. -/
def field (bs : List Byte) (off n : Nat) : Word := ofLe 32 ((bs.drop off).take n)

/-- A 16-bit field of a TSS image. -/
def field16 (bs : List Byte) (off : Nat) : Half := ofLe 16 ((bs.drop off).take 2)

/-- The general registers of a 32-bit TSS image (R640). -/
def gprOf32 (bs : List Byte) : Gpr :=
  { eax := field bs 0x28 4, ecx := field bs 0x2C 4, edx := field bs 0x30 4, ebx := field bs 0x34 4,
    esp := field bs 0x38 4, ebp := field bs 0x3C 4, esi := field bs 0x40 4, edi := field bs 0x44 4 }

/-- A 16-bit TSS field with an upper half of its own: the spec does not say what it becomes (log 11). -/
def halfReg (bs : List Byte) (off : Nat) : M Word := do
  let hi ← drawBits 16
  pure (hi ++ field16 bs off)

/-- The general registers of a 16-bit TSS image (R640). -/
def gprOf16 (bs : List Byte) : M Gpr := do
  let eax ← halfReg bs 0x12
  let ecx ← halfReg bs 0x14
  let edx ← halfReg bs 0x16
  let ebx ← halfReg bs 0x18
  let esp ← halfReg bs 0x1A
  let ebp ← halfReg bs 0x1C
  let esi ← halfReg bs 0x1E
  let edi ← halfReg bs 0x20
  pure { eax := eax, ecx := ecx, edx := edx, ebx := ebx, esp := esp, ebp := ebp, esi := esi, edi := edi }

/-- What an incoming TSS holds besides the general registers. -/
structure TaskImage where
  gpr : Gpr
  eip : Word
  flags : Flags
  cr3 : Option Word
  es : Half
  cs : Half
  ss : Half
  ds : Half
  fs : Half
  gs : Half
  ldt : Half
  trap : Bool
  deriving DecidableEq, Repr

/-- Read the fields of an incoming TSS (R640). -/
def taskImage (big : Bool) (bs : List Byte) : M TaskImage :=
  if big then
    pure { gpr := gprOf32 bs, eip := field bs 0x20 4, flags := Flags.ofWord (field bs 0x24 4),
           cr3 := some (field bs 0x1C 4), es := field16 bs 0x48, cs := field16 bs 0x4C, ss := field16 bs 0x50,
           ds := field16 bs 0x54, fs := field16 bs 0x58, gs := field16 bs 0x5C, ldt := field16 bs 0x60,
           trap := (field16 bs 0x64).getLsbD 0 }
  else do
    let g ← gprOf16 bs
    pure { gpr := g, eip := field bs 0x0E 2, flags := Flags.ofWord (field bs 0x10 2), cr3 := none,
           es := field16 bs 0x22, cs := field16 bs 0x24, ss := field16 bs 0x26, ds := field16 bs 0x28, fs := 0,
           gs := 0, ldt := field16 bs 0x2A, trap := false }

/-- The bits of CR3 that exist: base, PCD, PWT (R36, D29). -/
def cr3Mask : Word := 0xFFFFF018

/-- Load CR3 in a task switch (R128, R134): the linear tags go only if the value changes. -/
def taskCr3 (v : Option Word) (s : State) : State :=
  match v with
  | none => s
  | some v =>
    if s.pg then
      let new := v &&& cr3Mask
      let s' := flushTlb (s.putCr3 new)
      if s.cr.cr3 = new then s' else dropLinearTags s'
    else s

/-- A selector with nothing loaded yet behind it (R645 step 7: hidden parts not yet valid). -/
def bareSegs (t : TaskImage) : SegFile :=
  { es := SegReg.null t.es, cs := SegReg.null t.cs, ss := SegReg.null t.ss, ds := SegReg.null t.ds,
    fs := SegReg.null t.fs, gs := SegReg.null t.gs }

/-- Turn an exception into one taken in the new task's context (R645). -/
def committing {α : Type} (m : M α) : M α := fun s =>
  match m s with
  | .ok a s' => .ok a s'
  | .error (.exc e) s' => .error (.exc { e with committed := true }) s'
  | .error x s' => .error x s'

/-- Load LDTR in a task switch (R645 step 8). DESIGN CHOICE (log 52): the step names TI, the type and P only, so a null
selector loads, as LLDT loads it, and leaves LDTR unusable. -/
def taskLdt (sel : Half) (ext : Bool) : M Unit := do
  if nullSel sel then update fun s => s.setSys { s.sys with ldtr := SegReg.null sel }
  else do
    let code := withExt (selErr sel) ext
    check (!sel.getLsbD 2) vTS (some code)
    let d ← readDesc sel vTS code
    check (!d.attr.s && d.sysType == 2 && d.attr.p) vTS (some code)
    update fun s => s.setSys { s.sys with ldtr := d.reg sel d.attr.typ }

/-- Load CS in a task switch (R645 step 8). -/
def taskCs (sel : Half) (ext : Bool) : M Unit := do
  let code := withExt (selErr sel) ext
  check (!nullSel sel) vTS (some code)
  let d ← readDesc sel vTS code
  check (d.attr.isCode && (if d.attr.conforming then decide (d.dpl ≤ rpl sel) else d.dpl == rpl sel)) vTS (some code)
  check d.attr.p vNP (some code)
  let a ← openAccessed d
  setAccessed a
  update fun s => (s.putSeg .cs (d.segReg sel)).setCpl (sel.extractLsb' 0 2)

/-- Load the six segment registers of the incoming task (R645 step 8). -/
def taskSegs (t : TaskImage) (ext : Bool) : M Unit := do
  if t.flags.vm then
    update fun s => (s.setSeg { es := .v86 t.es, cs := .v86 t.cs, ss := .v86 t.ss, ds := .v86 t.ds,
                                fs := .v86 t.fs, gs := .v86 t.gs }).setCpl 3
  else do
    taskCs t.cs ext
    loadStackSeg t.ss (rpl t.cs) vTS ext
    loadDataSeg .ds t.ds (rpl t.cs) vTS ext
    loadDataSeg .es t.es (rpl t.cs) vTS ext
    loadDataSeg .fs t.fs (rpl t.cs) vTS ext
    loadDataSeg .gs t.gs (rpl t.cs) vTS ext

/-- The task switch from its seventh step: every fault belongs to the new task (R645). -/
def enterTask (t : TaskImage) (nested ext : Bool) : M Unit := do
  update fun s => taskCr3 t.cr3 s
  update fun s => ((s.setEip t.eip).setGpr t.gpr).setSeg (bareSegs t)
  update fun s => s.setSys { s.sys with ldtr := SegReg.null t.ldt }
  update fun s => s.setFlags { t.flags with nt := t.flags.nt || nested }
  update fun s => s.setCpl (t.cs.extractLsb' 0 2)
  taskLdt t.ldt ext
  taskSegs t ext
  doWhen t.trap (update fun s =>
    (s.setDr { s.dr with dr6 := putBit s.dr.dr6 15 true }).setIntr { s.intr with dbTrap := true })
  update fun s => s.setDr { s.dr with dr7 := s.dr.dr7 &&& 0xFFFFFEAA }
  update fun s => jumped (s.setScr { s.scr with rfLoaded := true })

/-- The checks on the incoming TSS descriptor (R645 step 1); entry 0 of the GDT is never used (R641). -/
def checkTss (src : TaskSource) (tsel : Half) (ext : Bool) : M Desc := do
  let s ← get
  let code := withExt (selErr tsel) ext
  let vBad := if src = .iret then vTS else vGP
  check (!tsel.getLsbD 2 && !nullSel tsel) vBad (some code)
  let d ← readDesc tsel vBad code
  let typ := d.sysType
  let avail := !d.attr.s && (typ == 1 || typ == 9)
  let busy := !d.attr.s && (typ == 3 || typ == 11)
  check (match src with
    | .jmp => avail && decide (max s.level (rpl tsel) ≤ d.dpl)
    | .interrupt => avail
    | .iret => busy) vBad (some code)
  check d.attr.p vNP (some code)
  check (decide ((if tss32 d.attr.typ then 0x67 else 0x2B) ≤ d.byteLimit)) vTS (some code)
  pure d

/-- The doubleword of a GDT descriptor that holds its type (R642). -/
def typeDword (gdtBase : Word) (sel : Half) : Word := gdtBase + BitVec.ofNat 32 ((sel.extractLsb' 3 13).toNat * 8 + 4)

/-- The unlocked read of the outgoing TSS descriptor, which comes before the update of its Busy bit (R642). -/
def readOutgoing (s : State) : M Unit := do
  let _ ← sysDesc (typeDword s.sys.gdtr.base s.sys.tr.sel - 4)
  pure ()

/-- Open a write that only some task switches make. -/
def openWhen (c : Bool) (la : Word) (n : Nat) : M (List Byt) := if c then openSys la n true else pure []

/-- The task switch (R645). `ret` is the EIP saved in the outgoing task, `img` its flags image. Its load of the control registers
waits for EWBE# as MOV to CR0 does (R147). -/
def taskSwitch (src : TaskSource) (tsel : Half) (ret : Word) (img : Flags) (ext : Bool) : M Unit := do
  let d ← checkTss src tsel ext
  let s ← get
  let big := tss32 d.attr.typ
  let out ← openOutgoing ret (if src = .iret then { img with nt := false } else img)
  let newBytes ← openSys d.base (if big then 0x68 else 0x2C) false
  doWhen (src != .interrupt) (readOutgoing s)
  let oldBusy ← openWhen (src != .interrupt) (typeDword s.sys.gdtr.base s.sys.tr.sel) 4
  let newBusy ← openWhen (src != .iret) (d.la + 4) 4
  let link ← openWhen (src == .interrupt) d.base 2
  pokeAll out
  doWhen (src != .interrupt) (lockedUpdate oldBusy (· &&& 0xFD))
  doWhen (src != .iret) (lockedUpdate newBusy (· ||| 2))
  doWhen (src == .interrupt) (poke link (toLe 2 s.sys.tr.sel))
  update (note .serial)
  update fun s => (s.setSys { s.sys with tr := d.reg tsel (d.attr.typ ||| 2) }).putCr0 (putBit s.cr.cr0 3 true)
  let bs ← peek newBytes
  let t ← taskImage big bs
  committing (enterTask t (src == .interrupt) ext)

/-! ### Far jump -/

/-- The CS of a far transfer without descriptors (R340, R646). -/
def State.returnCs (s : State) (sel : Half) : SegReg :=
  if s.realStyle then s.seg.cs.realLoad sel else SegReg.v86 sel

/-- A far jump in Protected mode to a code segment (R643). -/
def jumpCode (d : Desc) (sel : Half) (off : Word) : M Unit := do
  let s ← get
  let code := selErr sel
  check (if d.attr.conforming then decide (d.dpl ≤ s.level)
         else decide (rpl sel ≤ s.level) && d.dpl == s.level) vGP (some code)
  check d.attr.p vNP (some code)
  check (decide (off.toNat ≤ d.byteLimit)) vGP (some 0)
  let a ← openAccessed d
  setAccessed a
  update fun s' => traceBranch s.seg.cs.sel
    (jumped ((s'.putSeg .cs (d.segReg (withRpl sel s.level))).setEip off))

/-- A far jump to a TSS or through a task gate (R645, R646). -/
def jumpTask (tsel : Half) : M Unit := do
  let s ← get
  taskSwitch .jmp tsel s.eip s.flags false
  update (openTrace s.seg.cs.sel)

/-- `FarJump` (R646); a call gate is refused (D28). -/
def farJump (sel : Half) (off : Word) : M Unit := do
  let s ← get
  if s.realStyle || s.flags.vm then do
    check (s.targetOk off) vGP (some 0)
    update fun s => traceBranch s.seg.cs.sel (jumped ((s.putSeg .cs (s.returnCs sel)).setEip off))
  else do
    check (!nullSel sel) vGP (some 0)
    let d ← readDesc sel vGP (selErr sel)
    if d.attr.isCode then jumpCode d sel off
    else if d.attr.s then raise vGP (some (selErr sel))
    else
      match d.sysType with
      | 1 => jumpTask sel
      | 9 => jumpTask sel
      | 5 => do
        check (decide (max s.level (rpl sel) ≤ d.dpl)) vGP (some (selErr sel))
        check d.attr.p vNP (some (selErr sel))
        jumpTask d.gateSel
      | 4 => refuse .callGate
      | 12 => refuse .callGate
      | _ => raise vGP (some (selErr sel))

/-! ### Taking an exception or interrupt -/

/-- An event to deliver (R620): its vector, its kind, its error code, the return offset, and the flags image to save. -/
structure Event where
  vec : Byte
  kind : EventKind
  err : Option Half
  ret : Word
  img : Flags
  deriving DecidableEq, Repr

/-- INT n or INT3. -/
def Event.soft (e : Event) : Bool := e.kind == .software

/-- EXT of an error code raised during the delivery (R619): 0 for INT n and INT3. -/
def Event.ext (e : Event) : Bool := !e.soft

/-- The error code that names an IDT entry (R619). -/
def Event.idtCode (e : Event) : Half := withExt (e.vec.setWidth 16 <<< 3 ||| 2) e.ext

/-- Real-mode and SMM delivery through the vector table (R621, R622): nothing is stored before the vector can be read. -/
def deliverReal (e : Event) : M Unit := do
  let s ← get
  check (decide (4 * e.vec.toNat + 3 ≤ s.sys.idtr.limit.toNat)) vGP none
  let w ← openPushes s.bigStack s.gpr.esp
    [item16 (e.img.toWord.extractLsb' 0 16), item16 s.seg.cs.sel, item16 (e.ret.extractLsb' 0 16)]
  let v ← openSys (s.sys.idtr.base + BitVec.ofNat 32 (4 * e.vec.toNat)) 4 false
  commitPushes w
  let vs ← peek v
  let vec : Word := ofLe 32 vs
  update fun s => s.setFlags { s.flags with ifl := false, tf := false, ac := false, rf := false }
  update fun s => jumped
    ((s.putSeg .cs (s.seg.cs.realLoad (vec.extractLsb' 16 16))).setEip ((vec.extractLsb' 0 16).setWidth 32))

/-- The flags after a delivery through the IDT (R623, R625). -/
def gateFlags (f : Flags) (interruptGate : Bool) : Flags :=
  { f with tf := false, nt := false, vm := false, rf := false, ifl := if interruptGate then false else f.ifl }

/-- A frame item of a gate's width (R623). -/
def gateItem (big : Bool) (v : Word) : PushItem := { n := if big then 4 else 2, v := v }

/-- The error code of an event as a frame item, if it has one (R619). -/
def errItem (big : Bool) (e : Event) : List PushItem :=
  match e.err with
  | none => []
  | some c => [gateItem big (c.setWidth 32)]

/-- The three items every frame ends with (R623). -/
def frame (big : Bool) (e : Event) (cs : Half) : List PushItem :=
  [gateItem big e.img.toWord, gateItem big (cs.setWidth 32), gateItem big e.ret] ++ errItem big e

/-- Total bytes of a frame. -/
def frameBytes (its : List PushItem) : Nat := (its.map (·.n)).sum

/-- The frame has room in the stack segment: the limit check on all of it, before any push (R623 to R625). -/
def frameRoom (r : SegReg) (code : Half) : Word → List PushItem → M Unit
  | _, [] => pure ()
  | esp, it :: its => do
    let esp' := spAdd r.attr.db esp (0 - BitVec.ofNat 32 it.n)
    check (r.inLimit (spOf r.attr.db esp') it.n) vSS (some code)
    frameRoom r code esp' its

/-- Open the pushes of a frame in a given stack segment, first item highest: alignment check, pages, data breakpoints
(R617, R624, R672). -/
def openFrame (r : SegReg) (user : Bool) : Word → List PushItem → M (List (List Byt × List Byte) × Word)
  | esp, [] => pure ([], esp)
  | esp, it :: its => do
    let esp' := spAdd r.attr.db esp (0 - BitVec.ofNat 32 it.n)
    let off := spOf r.attr.db esp'
    doWhen user (alignCheck (r.base + off) it.n)
    let bs ← spanBytes { user := user, write := true } (fun i => r.base + off + BitVec.ofNat 32 i) it.n 0 none
    noteData true bs
    let (rest, last) ← openFrame r user esp' its
    pure ((bs, toLe it.n it.v) :: rest, last)

/-- Delivery at the same level (R623). DESIGN CHOICE (log 52): R623 names no check of SS itself; a null or read-only SS
leaves no room for the frame, hence SS(EXT). -/
def deliverSame (e : Event) (g d : Desc) : M Unit := do
  let s ← get
  let big := g.attr.typ.getLsbD 3
  let its := frame big e s.seg.cs.sel
  check (!nullSel s.seg.ss.sel && s.seg.ss.attr.writable) vSS (some (withExt 0 e.ext))
  frameRoom s.seg.ss (withExt 0 e.ext) s.gpr.esp its
  let w ← openFrame s.seg.ss (s.level == 3) s.gpr.esp its
  check (decide (g.gateOff.toNat ≤ d.byteLimit)) vGP (some (withExt 0 e.ext))
  let a ← openAccessed d
  commitPushes w
  setAccessed a
  update fun s => (s.setFlags (gateFlags s.flags (!g.attr.typ.getLsbD 0))).setEip g.gateOff
  update fun s' => jumped (s'.putSeg .cs (d.segReg (withRpl g.gateSel s.level)))

/-- The stack pointer of an inner level in the current TSS (R624): SS and ESP. -/
def tssStack (new : Nat) (ext : Bool) : M (Half × Word) := do
  let s ← get
  let tr := s.sys.tr
  let code := withExt (selErr tr.sel) ext
  if tss32 tr.attr.typ then do
    let off := 4 + 8 * new
    check (decide (off + 5 ≤ tr.byteLimit)) vTS (some code)
    let esp ← sysVal 32 (tr.base + BitVec.ofNat 32 off) 4
    let ss ← sysVal 16 (tr.base + BitVec.ofNat 32 (off + 4)) 2
    pure (ss, esp)
  else do
    let off := 2 + 4 * new
    check (decide (off + 3 ≤ tr.byteLimit)) vTS (some code)
    let sp ← sysVal 16 (tr.base + BitVec.ofNat 32 off) 2
    let ss ← sysVal 16 (tr.base + BitVec.ofNat 32 (off + 2)) 2
    pure (ss, sp.setWidth 32)

/-- The stack segment of an inner level (R624). -/
def innerStack (nss : Half) (new : Nat) (ext : Bool) : M Desc := do
  check (!nullSel nss) vTS (some (withExt 0 ext))
  let code := withExt (selErr nss) ext
  let d ← readDesc nss vTS code
  check (stackSegOk d nss new) vTS (some code)
  check d.attr.p vSS (some code)
  pure d

/-- Deliver on the stack of an inner level (R624, R625): `extra` is what the frame begins with. -/
def deliverInner (e : Event) (g d : Desc) (new : Nat) (extra : List PushItem) : M Unit := do
  let s ← get
  let big := g.attr.typ.getLsbD 3
  let (nss, nesp) ← tssStack new e.ext
  let sd ← innerStack nss new e.ext
  let its := extra ++ [gateItem big (s.seg.ss.sel.setWidth 32), gateItem big s.gpr.esp] ++ frame big e s.seg.cs.sel
  frameRoom (sd.segReg nss) (withExt (selErr nss) e.ext) nesp its
  check (decide (g.gateOff.toNat ≤ d.byteLimit)) vGP (some (withExt 0 e.ext))
  let w ← openFrame (sd.segReg nss) false nesp its
  let a1 ← openAccessed d
  let a2 ← openAccessed sd
  commitPushes w
  setAccessed a1
  setAccessed a2
  update fun s => (s.setFlags (gateFlags s.flags (!g.attr.typ.getLsbD 0))).setEip g.gateOff
  update fun s => (s.putSeg .ss (sd.segReg nss)).putSeg .cs (d.segReg (withRpl g.gateSel new))
  update fun s => jumped (s.setCpl (BitVec.ofNat 2 new))

/-- Delivery from Virtual-8086 mode (R625): the data segment registers are saved, then loaded null. -/
def deliverV86 (e : Event) (g d : Desc) : M Unit := do
  let s ← get
  let big := g.attr.typ.getLsbD 3
  check (!d.attr.conforming && d.dpl == 0) vGP (some (withExt (selErr g.gateSel) e.ext))
  let extra := [gateItem big (s.seg.gs.sel.setWidth 32), gateItem big (s.seg.fs.sel.setWidth 32),
    gateItem big (s.seg.ds.sel.setWidth 32), gateItem big (s.seg.es.sel.setWidth 32)]
  deliverInner e g d 0 extra
  update fun s => (((s.putSeg .ds (SegReg.null 0)).putSeg .es (SegReg.null 0)).putSeg .fs (SegReg.null 0)).putSeg
    .gs (SegReg.null 0)

/-- The error codes of stack and protection faults during a delivery carry EXT (R619); those of page faults and alignment
checks have no such bit. -/
def carryingExt {α : Type} (ext : Bool) (m : M α) : M α := fun s =>
  match m s with
  | .ok a s' => .ok a s'
  | .error (.exc x) s' =>
    if x.vec = vSS ∨ x.vec = vGP then .error (.exc { x with err := x.err.map fun c => withExt c ext }) s'
    else .error (.exc x) s'
  | .error x s' => .error x s'

/-- Delivery through a task gate (R626). -/
def deliverTask (e : Event) (g : Desc) : M Unit := do
  check (!g.gateSel.getLsbD 2) vGP (some (withExt (selErr g.gateSel) e.ext))
  taskSwitch .interrupt g.gateSel e.ret e.img e.ext
  let s ← get
  committing (do
    carryingExt e.ext (pushItems (errItem (tss32 s.sys.tr.attr.typ) e))
    check (s.targetOk s.eip) vGP (some (withExt 0 e.ext)))

/-- Protected-mode and Virtual-8086 delivery through the IDT (R623 to R626). -/
def deliverIdt (e : Event) : M Unit := do
  let s ← get
  check (decide (8 * e.vec.toNat + 7 ≤ s.sys.idtr.limit.toNat)) vGP (some e.idtCode)
  let la := s.sys.idtr.base + BitVec.ofNat 32 (8 * e.vec.toNat)
  let q ← sysDesc la
  let g : Desc := { la := la, q := q }
  let typ := g.sysType
  check (!g.attr.s && (typ == 5 || typ == 6 || typ == 7 || typ == 14 || typ == 15)) vGP (some e.idtCode)
  check (!e.soft || decide (s.level ≤ g.dpl)) vGP (some e.idtCode)
  check g.attr.p vNP (some e.idtCode)
  if typ == 5 then deliverTask e g
  else do
    let code := withExt (selErr g.gateSel) e.ext
    check (!nullSel g.gateSel) vGP (some (withExt 0 e.ext))
    let d ← readDesc g.gateSel vGP code
    check (d.attr.isCode && decide (d.dpl ≤ s.level)) vGP (some code)
    check d.attr.p vNP (some code)
    if s.mode = .v86 then deliverV86 e g d
    else if !d.attr.conforming && decide (d.dpl < s.level) then deliverInner e g d d.dpl []
    else deliverSame e g d

/-- Deliver an event (R620): through the vector table in Real mode and SMM, through the IDT otherwise. -/
def deliver (e : Event) : M Unit := do
  let s ← get
  if s.realStyle then deliverReal e else deliverIdt e

/-- What an abandoned attempt leaves (R620): registers as before; memory, caches and draws as they are now, for the
walks' A and D updates stand (R127). -/
def rollback (before after : State) : State :=
  ((before.setMem after.mem).setCache after.cache).setDraws after.draws

/-- The state in which an exception is delivered: registers rolled back unless it belongs to the new task, CR2 and DR6
written, DR7.GD cleared by a general detect (R127, R671, R675). -/
def excState (x : Exc) (before after : State) : State :=
  let s := if x.committed then after else rollback before after
  let s := match x.cr2 with | none => s | some la => s.putCr2 la
  let s := s.setDr { s.dr with dr6 := s.dr.dr6 ||| x.dr6,
                               dr7 := if x.clearGd then putBit s.dr.dr7 13 false else s.dr.dr7 }
  s.setScr { s.scr with noTrap := true }

/-- The event of an exception: the return offset is the current EIP, and the saved image has RF set for a fault that
is not an instruction breakpoint (R620, R671). -/
def excEvent (x : Exc) (s : State) : Event :=
  { vec := x.vec, kind := .exception, err := x.err, ret := s.eip, img := { s.flags with rf := x.setRf } }

/-- The classes of R628. -/
inductive ExcClass
  | benign | contributory | pageFault | doubleFault
  deriving DecidableEq, Repr

/-- The class of a vector (R628). -/
def excClass (v : Byte) : ExcClass :=
  if v = vDF then .doubleFault
  else if v = vPF then .pageFault
  else if v = vDE ∨ v = vTS ∨ v = vNP ∨ v = vSS ∨ v = vGP then .contributory
  else .benign

/-- The class of an event: every interrupt is benign (R628). -/
def EventKind.cls (k : EventKind) (vec : Byte) : ExcClass := if k = .exception then excClass vec else .benign

/-- The class of an event to deliver. -/
def Event.cls (e : Event) : ExcClass := e.kind.cls e.vec

/-- What a second exception during the delivery of a first leads to (R628). -/
inductive Second
  | deliverIt | doubleFault | shutdown
  deriving DecidableEq, Repr

/-- The table of R628. -/
def second (first next : ExcClass) : Second :=
  match first, next with
  | .doubleFault, .benign => .deliverIt
  | .doubleFault, _ => .shutdown
  | .benign, _ => .deliverIt
  | .contributory, .contributory => .doubleFault
  | .contributory, _ => .deliverIt
  | .pageFault, .benign => .deliverIt
  | .pageFault, _ => .doubleFault

/-- Enter Shutdown with its special cycle (R630, R209); no debug trap is taken from there, and nothing is held off there by an
instruction before it. -/
def enterShutdown (s : State) : State :=
  (((special 0xFE 0 s).setIntr { s.intr with dbTrap := false, shadow := .none, handling := none }).setScr
    { s.scr with noTrap := true }).setClock .shutdown

/-- The double fault that replaces an event: error code 0, the return offset of the first exception (R628). DESIGN CHOICE (log 31):
R620 and R671 say what RF is in the image of a fault, a trap and an interrupt, not of this abort: it is free. -/
def doubleFaultOf (e : Event) (s : State) : Event :=
  { e with vec := vDF, kind := .exception, err := some 0, img := { e.img with rf := Config.freeBit s.draws } }

/-- The delivery of an event is done; until the first instruction of its handler is fetched, an exception is a second one
(R628). -/
def Event.inHandler (e : Event) (s : State) : State :=
  s.setIntr { s.intr with handling := some { vec := e.vec, kind := e.kind, ret := e.ret } }

/-- Deliver an event to the machine, with second exceptions and the double fault (R620, R628). `fuel` bounds the
chain, which ends in a delivery or in Shutdown after at most five. -/
def takeEvent : Nat → Event → State → Host.Outcome State Fault Refusal
  | 0, _, s => .next (enterShutdown s)
  | fuel + 1, e, s =>
    match deliver e s with
    | .ok _ s' => .next (e.inHandler (openTrace s.seg.cs.sel s'))
    | .error (.exc x) s' =>
      let t := excState x s s'
      match second e.cls (excClass x.vec) with
      | .deliverIt => takeEvent fuel (excEvent x t) t
      | .doubleFault => takeEvent fuel (doubleFaultOf e t) (t.setDraws (t.draws + 1))
      | .shutdown => .next (enterShutdown t)
    | .error (.fault f) _ => .fault f
    | .error (.refused r) _ => .refused r
    | .error .wait s' => .next s'

/-- Take the exception an instruction raised (R620): the one way a meaning ends in an exception. -/
def takeException (x : Exc) (before after : State) : Host.Outcome State Fault Refusal :=
  takeEvent 8 (excEvent x (excState x before after)) (excState x before after)

/-- The state in which a meaning computes: EIP already at the next instruction, so that a meaning only assigns it to
transfer control; the instruction's own EIP is kept in `scr.start`. -/
def State.advance (s : State) : State := (s.setEip s.nextEip).setScr { s.scr with start := s.eip }

/-- Run a meaning: its outcome, the exception it raised, or a step that only waits (R590). -/
def run (m : M Unit) (s : State) : Host.Outcome State Fault Refusal :=
  match m s.advance with
  | .ok _ s' => .next s'
  | .error (.exc x) s' => takeException x s s'
  | .error (.fault f) _ => .fault f
  | .error (.refused r) _ => .refused r
  | .error .wait _ => .next (s.setScr { s.scr with noTrap := true })

/-- INT n and INT3 deliver in the instruction itself: a fault on the way is the instruction's own (R336). -/
def softInt (n : Byte) : M Unit := do
  let s ← get
  deliver { vec := n, kind := .software, err := none, ret := s.eip, img := { s.flags with rf := false } }
  update fun t => traceBranch s.seg.cs.sel (t.setScr { t.scr with tf := false })

/-! ### The return -/

/-- EFLAGS with the bits of `mask` taken from an image (R335, R340). -/
def mergeFlags (f : Flags) (img mask : Word) : Flags := Flags.ofWord ((img &&& mask) ||| (f.toWord &&& ~~~mask))

/-- NMI is unmasked by any IRET that completes (R664); IRET serializes (R151), its wait for EWBE# noted at its beginning. -/
def finishIret (cs : Half) (o : OSz) (s : State) : State :=
  let s := s.setIntr { s.intr with nmiMasked := false }
  let s := s.setScr { s.scr with rfLoaded := o == .o32 }
  dropMarks (traceBranch cs (jumped s))

/-- IRET without descriptors: pop EIP, CS and the flags, of which `mask` is loaded (R340); EIP has no limit check here. -/
def iretFlat (o : OSz) (mask : Word) : M Unit := do
  let s ← get
  let eip ← stackAt 0 o.bytes
  let cs ← stackAt o.bytes o.bytes
  let img ← stackAt (2 * o.bytes) o.bytes
  moveSp (3 * o.bytes)
  let sel := cs.extractLsb' 0 16
  update fun s => (s.putSeg .cs (s.returnCs sel)).setEip eip
  update fun s => s.setFlags (mergeFlags s.flags img mask)
  update (finishIret s.seg.cs.sel o)

/-- The image bits a Real-mode IRET or IRETD loads (R340): 32-bit leaves VM, VIF and VIP. -/
def iretMask (o : OSz) : Word :=
  match o with
  | .o16 => 0x00007FD5
  | .o32 => 0x00257FD5

/-- The 16-bit IRET of a Virtual-8086 program under VME with IOPL below 3 (R340): VIF stands for IF. -/
def iretVme : M Unit := do
  let s ← get
  let ip ← stackAt 0 2
  let cs ← stackAt 2 2
  let img ← stackAt 4 2
  check (!((img.getLsbD 9 && s.flags.vip) || img.getLsbD 8)) vGP (some 0)
  moveSp 6
  update fun s => (s.putSeg .cs (s.returnCs (cs.extractLsb' 0 16))).setEip ip
  update fun s => s.setFlags { mergeFlags s.flags img 0x00004DD5 with vif := img.getLsbD 9 }
  update (finishIret s.seg.cs.sel .o16)

/-- A data segment register after a return to an outer level: null if the level may not use it (R340). -/
def dropInner (level : Nat) (r : SegReg) : SegReg :=
  if (r.attr.isData || (r.attr.isCode && !r.attr.conforming)) && decide (r.attr.dpl.toNat < level) then SegReg.null 0
  else r

/-- The flags a Protected-mode return may load (R340). -/
def iretWritable (o : OSz) (level iopl : Nat) : Word :=
  0x00004DD5 ||| (if o = .o32 then 0x00250000 else 0) ||| (if level ≤ iopl then 0x200 else 0)
    ||| (if level = 0 then 0x3000 else 0) ||| (if level = 0 ∧ o = .o32 then 0x00180000 else 0)

/-- The return to Virtual-8086 mode (R340). -/
def iretToV86 (eip cs img : Word) : M Unit := do
  let s ← get
  let esp ← stackAt 12 4
  let ss ← stackAt 16 4
  let es ← stackAt 20 4
  let ds ← stackAt 24 4
  let fs ← stackAt 28 4
  let gs ← stackAt 32 4
  let v (w : Word) : SegReg := SegReg.v86 (w.extractLsb' 0 16)
  update fun s => (s.setFlags (Flags.ofWord img)).setSeg
    { es := v es, cs := v cs, ss := v ss, ds := v ds, fs := v fs, gs := v gs }
  update fun s => ((s.putReg .esp esp).setCpl 3).setEip (eip &&& 0xFFFF)
  update (finishIret s.seg.cs.sel .o32)

/-- The stack pointer after a return to an outer level: all of ESP, or SP alone for a 16-bit return (log 10). -/
def outerEsp (o : OSz) (esp v : Word) : Word :=
  match o with
  | .o16 => putHalf esp (v.extractLsb' 0 16)
  | .o32 => v

/-- The stack of a Protected-mode return: three items dropped at the same level, else SS:ESP of the outer level loaded and
the data segment registers it may not use dropped (R340). -/
def iretStack (o : OSz) (d : Desc) (sel : Half) (lvl : Nat) : M Unit := do
  if rpl sel = lvl then do
    let a ← openAccessed d
    setAccessed a
    moveSp (3 * o.bytes)
  else do
    let esp ← stackAt (3 * o.bytes) o.bytes
    let ssw ← stackAt (4 * o.bytes) o.bytes
    let ss := ssw.extractLsb' 0 16
    check (!nullSel ss) vGP (some 0)
    let sd ← readDesc ss vGP (selErr ss)
    check (stackSegOk sd ss (rpl sel)) vGP (some (selErr ss))
    check sd.attr.p vSS (some (selErr ss))
    let a ← openAccessed d
    let b ← openAccessed sd
    setAccessed a
    setAccessed b
    update fun s => (s.putSeg .ss (sd.segReg ss)).putReg .esp (outerEsp o s.gpr.esp esp)
    update fun s => s.setSeg { s.seg with es := dropInner (rpl sel) s.seg.es, ds := dropInner (rpl sel) s.seg.ds,
                                          fs := dropInner (rpl sel) s.seg.fs, gs := dropInner (rpl sel) s.seg.gs }

/-- The return within Protected mode, to the same or an outer level (R340). DESIGN CHOICE (log 10): R340 says "DPL rules" and refers
to R641, which gives none; the DPL of a conforming segment is at most the RPL of CS, that of another equals it. -/
def iretProt (o : OSz) (eip csw img : Word) : M Unit := do
  let s ← get
  let sel := csw.extractLsb' 0 16
  let lvl := s.level
  check (!nullSel sel) vGP (some 0)
  check (decide (lvl ≤ rpl sel)) vGP (some (selErr sel))
  let d ← readDesc sel vGP (selErr sel)
  check (d.attr.isCode && (if d.attr.conforming then decide (d.dpl ≤ rpl sel) else d.dpl == rpl sel)) vGP
    (some (selErr sel))
  check d.attr.p vNP (some (selErr sel))
  check (decide (eip.toNat ≤ d.byteLimit)) vGP (some 0)
  let flags := mergeFlags s.flags img (iretWritable o lvl s.flags.iopl.toNat)
  iretStack o d sel lvl
  update fun s => ((s.putSeg .cs (d.segReg sel)).setEip eip).setCpl (sel.extractLsb' 0 2)
  update fun s => s.setFlags flags
  update (finishIret s.seg.cs.sel o)

/-- Return from a nested task (R340, R645): to the TSS that the current one links to. -/
def iretTask : M Unit := do
  let s ← get
  let link ← sysVal 16 s.sys.tr.base 2
  taskSwitch .iret link s.eip s.flags false
  update fun t => openTrace s.seg.cs.sel (dropMarks (t.setIntr { t.intr with nmiMasked := false }))

/-- IRET and IRETD in every mode (R340); IRET serializes, so it waits for EWBE# before anything else (R147, R151). DESIGN CHOICE
(log 51): in SMM it returns as in Real mode, also where the handler has set CR0.PE. -/
def iretOp (o : OSz) : M Unit := do
  update (note .serial)
  let s ← get
  if s.realStyle then iretFlat o (iretMask o)
  else if s.flags.vm then
    if s.flags.iopl = 3 then iretFlat o (iretMask o &&& 0xFFFFCFFF)
    else if !s.vme || o == .o32 then gp0
    else iretVme
  else
    if s.flags.nt then iretTask
    else do
      let eip ← stackAt 0 o.bytes
      let cs ← stackAt o.bytes o.bytes
      let img ← stackAt (2 * o.bytes) o.bytes
      if img.getLsbD 17 && s.level == 0 && o == .o32 then iretToV86 eip cs img
      else iretProt o eip cs img

end Sys2Proof.Machine
end

