-- ==== Sys2Proof/Machine/Operands.lean ====
section
/-! DEFINITION. Every operand form: effective addresses (R265 to R267), segments (R268), immediates (R269), and reading,
writing and modifying an operand (R360, R510). -/
namespace Sys2Proof.Machine

open Sys2Proof

/-! ### Addresses -/

/-- The register part of a 16-bit effective address (R267). -/
def baseSum (b : Base16) (g : Gpr) : Half :=
  let r (x : Reg) : Half := g.view .w x
  match b with
  | .bxsi => r .ebx + r .esi
  | .bxdi => r .ebx + r .edi
  | .bpsi => r .ebp + r .esi
  | .bpdi => r .ebp + r .edi
  | .si => r .esi
  | .di => r .edi
  | .bp => r .ebp
  | .bx => r .ebx
  | .abs => 0

/-- The base of a 32-bit effective address (R265, R266). -/
def baseValue (g : Gpr) : Option Reg → Word
  | none => 0
  | some r => g.get r

/-- The scaled index of a 32-bit effective address (R266). -/
def indexValue (g : Gpr) : Option (Reg × BitVec 2) → Word
  | none => 0
  | some (r, sc) => g.get r <<< sc.toNat

/-- The effective address (R265 to R267): modulo 2^16 and extended, or modulo 2^32. -/
def effAddr (m : MemOp) (g : Gpr) : Word :=
  match m with
  | .m16 b d => (baseSum b g + d).setWidth 32
  | .m32 b i d => baseValue g b + indexValue g i + d

/-- An address of a memory operand's size: 16-bit addresses wrap at 64 Kbytes (R267). -/
def wrapAddr (m : MemOp) (a : Word) : Word :=
  match m with
  | .m16 _ _ => a &&& 0xFFFF
  | .m32 _ _ _ => a

/-- The segment of a memory operand without an override: SS where BP, EBP or ESP is the base (R265, R267). -/
def defaultSeg (m : MemOp) : Seg :=
  match m with
  | .m16 .bpsi _ => .ss
  | .m16 .bpdi _ => .ss
  | .m16 .bp _ => .ss
  | .m16 _ _ => .ds
  | .m32 (some .ebp) _ _ => .ss
  | .m32 (some .esp) _ _ => .ss
  | .m32 _ _ _ => .ds

/-- The segment of a memory operand (R268). -/
def segFor (p : Pfx) (m : MemOp) : Seg := p.seg.getD (defaultSeg m)

/-- An `Iv` immediate at an operand size. -/
def immV (sz : Size) (imm : Word) : BitVec sz.bits := imm.setWidth sz.bits

/-- An `Ib` or `Ibs` immediate at an operand size: sign-extended (R269). -/
def immS (sz : Size) (imm : Byte) : BitVec sz.bits := imm.signExtend sz.bits

/-! ### Reading and writing -/

/-- Read a value of an operand size through a segment. -/
def loadVal (seg : Seg) (off : Word) (sz : Size) : M (BitVec sz.bits) := do
  let vs ← loadBytes seg off sz.bytes sz.bytes
  pure (ofLe sz.bits vs)

/-- Write a value of an operand size through a segment. -/
def storeVal (seg : Seg) (off : Word) (sz : Size) (v : BitVec sz.bits) : M Unit :=
  writeBytes seg off sz.bytes (toLe sz.bytes v)

/-- Read a memory operand. -/
def loadMem (p : Pfx) (sz : Size) (m : MemOp) : M (BitVec sz.bits) := do
  let s ← get
  loadVal (segFor p m) (effAddr m s.gpr) sz

/-- Read an r/m operand. -/
def loadRm (p : Pfx) (sz : Size) : RM → M (BitVec sz.bits)
  | .reg r => do
    let s ← get
    pure (s.view sz r)
  | .mem m => loadMem p sz m

/-- Write a memory operand. -/
def storeMem (p : Pfx) (sz : Size) (m : MemOp) (v : BitVec sz.bits) : M Unit := do
  let s ← get
  storeVal (segFor p m) (effAddr m s.gpr) sz v

/-- Write an r/m operand. -/
def storeRm (p : Pfx) (sz : Size) (rm : RM) (v : BitVec sz.bits) : M Unit :=
  match rm with
  | .reg r => update (·.putView sz r v)
  | .mem m => storeMem p sz m v

/-- What a computation on a destination gives: the value written back and the state with the other results. -/
abbrev Modify (sz : Size) := BitVec sz.bits → State → BitVec sz.bits × State

/-- Read-modify-write of opened bytes (R360): every check is done already; a locked one is never cached (R510). -/
def modifyBytes (lock : Bool) (sz : Size) (bs : List Byt) (f : Modify sz) : M Unit := do
  let vs ← peekAs lock bs
  let s ← get
  let r := f (ofLe sz.bits vs) s
  set r.2
  pokeAs lock bs (toLe sz.bytes r.1)

/-- Read-modify-write of memory at an offset of a segment. -/
def modifyAt (lock : Bool) (seg : Seg) (off : Word) (sz : Size) (f : Modify sz) : M Unit := do
  let bs ← openRmw seg off sz.bytes sz.bytes
  modifyBytes lock sz bs f

/-- Read-modify-write of an r/m operand (R360). -/
def modifyRm (p : Pfx) (sz : Size) (rm : RM) (f : Modify sz) : M Unit :=
  match rm with
  | .reg r => update fun s =>
    let x := f (s.view sz r) s
    x.2.putView sz r x.1
  | .mem m => do
    let s ← get
    modifyAt p.lock (segFor p m) (effAddr m s.gpr) sz f

/-- The offset of an A0h to A3h operand (R269). -/
def moffs (p : Pfx) (off : Word) : Word := truncTarget p.asz off

/-- The next-instruction address plus a `rel8` (R450). -/
def State.rel8 (s : State) (d : Byte) : Word := s.eip + d.signExtend 32

/-- The next-instruction address plus a `relv`: 16 bits are sign-extended (R450). -/
def State.relv (s : State) (o : OSz) (d : Word) : Word :=
  s.eip + match o with
    | .o16 => (d.extractLsb' 0 16).signExtend 32
    | .o32 => d

end Sys2Proof.Machine
end

