-- ==== Sys2Proof/Machine/Alu.lean ====
section
/-! DEFINITION. Two-operand and one-operand integer arithmetic and logic (R360 to R374). -/
namespace Sys2Proof.Machine

open Sys2Proof

/-- A two-operand operation: destination, source and CF give the result and the flags. -/
abbrev BinOp := (w : Nat) → BitVec w → BitVec w → Bool → BitVec w × FlagSet

/-- ADD (R362). -/
def addOp : BinOp := fun _ x y _ => (x + y, addFlags x y false (x + y))
/-- OR (R363). -/
def orOp : BinOp := fun _ x y _ => (x ||| y, logicFlags (x ||| y))
/-- ADC (R364). -/
def adcOp : BinOp := fun w x y c => (x + y + BitVec.ofNat w c.toNat, addFlags x y c (x + y + BitVec.ofNat w c.toNat))
/-- SBB (R365). -/
def sbbOp : BinOp := fun w x y c => (x - y - BitVec.ofNat w c.toNat, subFlags x y c (x - y - BitVec.ofNat w c.toNat))
/-- AND (R366) and TEST (R370). -/
def andOp : BinOp := fun _ x y _ => (x &&& y, logicFlags (x &&& y))
/-- SUB (R367) and CMP (R369). -/
def subOp : BinOp := fun _ x y _ => (x - y, subFlags x y false (x - y))
/-- XOR (R368). -/
def xorOp : BinOp := fun _ x y _ => (x ^^^ y, logicFlags (x ^^^ y))

/-- `dst ← op(dst, src)` on a destination (R362 to R368). -/
def binModify (op : BinOp) (sz : Size) (y : BitVec sz.bits) : Modify sz := fun x s =>
  ((op sz.bits x y s.flags.cf).1, s.putFlags (op sz.bits x y s.flags.cf).2)

/-- `op E, value`. -/
def binRm (op : BinOp) (p : Pfx) (sz : Size) (rm : RM) (y : BitVec sz.bits) : M Unit :=
  modifyRm p sz rm (binModify op sz y)

/-- `op E, G`. -/
def binRmReg (op : BinOp) (p : Pfx) (sz : Size) (rm : RM) (g : Reg) : M Unit := do
  let s ← get
  binRm op p sz rm (s.view sz g)

/-- A register destination: the result and the flags. -/
def State.binReg (s : State) (op : BinOp) (sz : Size) (g : Reg) (y : BitVec sz.bits) : State :=
  (binModify op sz y (s.view sz g) s).2.putView sz g (binModify op sz y (s.view sz g) s).1

/-- `op G, E`. -/
def binRegRm (op : BinOp) (p : Pfx) (sz : Size) (g : Reg) (rm : RM) : M Unit := do
  let y ← loadRm p sz rm
  update (·.binReg op sz g y)

/-- `op AL/AX/EAX, value`. -/
def binAcc (op : BinOp) (sz : Size) (y : BitVec sz.bits) : M Unit := update (·.binReg op sz .eax y)

/-- The flags of an operation, nothing written (R369, R370). -/
def State.binTest (s : State) (op : BinOp) (sz : Size) (x y : BitVec sz.bits) : State :=
  s.putFlags (op sz.bits x y s.flags.cf).2

/-- `op E, value` for CMP and TEST. -/
def testRm (op : BinOp) (p : Pfx) (sz : Size) (rm : RM) (y : BitVec sz.bits) : M Unit := do
  let x ← loadRm p sz rm
  update (·.binTest op sz x y)

/-- `op E, G` for CMP and TEST. -/
def testRmReg (op : BinOp) (p : Pfx) (sz : Size) (rm : RM) (g : Reg) : M Unit := do
  let s ← get
  testRm op p sz rm (s.view sz g)

/-- `CMP G, E`. -/
def testRegRm (op : BinOp) (p : Pfx) (sz : Size) (g : Reg) (rm : RM) : M Unit := do
  let y ← loadRm p sz rm
  update fun s => s.binTest op sz (s.view sz g) y

/-- `op AL/AX/EAX, value` for CMP and TEST. -/
def testAcc (op : BinOp) (sz : Size) (y : BitVec sz.bits) : M Unit :=
  update fun s => s.binTest op sz (s.view sz .eax) y

/-- The flags of INC and DEC: CF stays (R371, R372). -/
def keepCf (x : FlagSet) : FlagSet := { x with cf := .keep }

/-- A one-operand operation. -/
abbrev UnOp := (w : Nat) → BitVec w → BitVec w × FlagSet

/-- INC (R371). -/
def incOp : UnOp := fun _ x => (x + 1, keepCf (addFlags x 1 false (x + 1)))
/-- DEC (R372). -/
def decOp : UnOp := fun _ x => (x - 1, keepCf (subFlags x 1 false (x - 1)))
/-- NEG (R373). -/
def negOp : UnOp := fun _ x => (0 - x, subFlags 0 x false (0 - x))
/-- NOT (R374): no flag changes. -/
def notOp : UnOp := fun _ x => (~~~x, FlagSet.none)

/-- `dst ← op(dst)` on a destination. -/
def unModify (op : UnOp) (sz : Size) : Modify sz := fun x s => ((op sz.bits x).1, s.putFlags (op sz.bits x).2)

/-- `op E`. -/
def unRm (op : UnOp) (p : Pfx) (sz : Size) (rm : RM) : M Unit := modifyRm p sz rm (unModify op sz)

/-! ### The instructions -/

/-- `ADD_Eb_Gb` (R362). -/
def execAddEbGb (p : Pfx) (rm : RM) (g : Reg) (s : State) : Host.Outcome State Fault Refusal :=
  run (binRmReg addOp p .b rm g) s

/-- `ADD_Ev_Gv` (R362). -/
def execAddEvGv (p : Pfx) (rm : RM) (g : Reg) (s : State) : Host.Outcome State Fault Refusal :=
  run (binRmReg addOp p p.osz.size rm g) s

/-- `ADD_Gb_Eb` (R362). -/
def execAddGbEb (p : Pfx) (g : Reg) (rm : RM) (s : State) : Host.Outcome State Fault Refusal :=
  run (binRegRm addOp p .b g rm) s

/-- `ADD_Gv_Ev` (R362). -/
def execAddGvEv (p : Pfx) (g : Reg) (rm : RM) (s : State) : Host.Outcome State Fault Refusal :=
  run (binRegRm addOp p p.osz.size g rm) s

/-- `ADD_AL_Ib` (R362). -/
def execAddAlIb (_p : Pfx) (imm : Byte) (s : State) : Host.Outcome State Fault Refusal :=
  run (binAcc addOp .b imm) s

/-- `ADD_eAX_Iv` (R362). -/
def execAddEaxIv (p : Pfx) (imm : Word) (s : State) : Host.Outcome State Fault Refusal :=
  run (binAcc addOp p.osz.size (immV p.osz.size imm)) s

/-- `ADD_Eb_Ib` (R362). -/
def execAddEbIb (p : Pfx) (rm : RM) (imm : Byte) (s : State) : Host.Outcome State Fault Refusal :=
  run (binRm addOp p .b rm imm) s

/-- `ADD_Ev_Iv` (R362). -/
def execAddEvIv (p : Pfx) (rm : RM) (imm : Word) (s : State) : Host.Outcome State Fault Refusal :=
  run (binRm addOp p p.osz.size rm (immV p.osz.size imm)) s

/-- `ADD_Ev_Ibs` (R362). -/
def execAddEvIbs (p : Pfx) (rm : RM) (imm : Byte) (s : State) : Host.Outcome State Fault Refusal :=
  run (binRm addOp p p.osz.size rm (immS p.osz.size imm)) s

/-- `OR_Eb_Gb` (R363). -/
def execOrEbGb (p : Pfx) (rm : RM) (g : Reg) (s : State) : Host.Outcome State Fault Refusal :=
  run (binRmReg orOp p .b rm g) s

/-- `OR_Ev_Gv` (R363). -/
def execOrEvGv (p : Pfx) (rm : RM) (g : Reg) (s : State) : Host.Outcome State Fault Refusal :=
  run (binRmReg orOp p p.osz.size rm g) s

/-- `OR_Gb_Eb` (R363). -/
def execOrGbEb (p : Pfx) (g : Reg) (rm : RM) (s : State) : Host.Outcome State Fault Refusal :=
  run (binRegRm orOp p .b g rm) s

/-- `OR_Gv_Ev` (R363). -/
def execOrGvEv (p : Pfx) (g : Reg) (rm : RM) (s : State) : Host.Outcome State Fault Refusal :=
  run (binRegRm orOp p p.osz.size g rm) s

/-- `OR_AL_Ib` (R363). -/
def execOrAlIb (_p : Pfx) (imm : Byte) (s : State) : Host.Outcome State Fault Refusal :=
  run (binAcc orOp .b imm) s

/-- `OR_eAX_Iv` (R363). -/
def execOrEaxIv (p : Pfx) (imm : Word) (s : State) : Host.Outcome State Fault Refusal :=
  run (binAcc orOp p.osz.size (immV p.osz.size imm)) s

/-- `OR_Eb_Ib` (R363). -/
def execOrEbIb (p : Pfx) (rm : RM) (imm : Byte) (s : State) : Host.Outcome State Fault Refusal :=
  run (binRm orOp p .b rm imm) s

/-- `OR_Ev_Iv` (R363). -/
def execOrEvIv (p : Pfx) (rm : RM) (imm : Word) (s : State) : Host.Outcome State Fault Refusal :=
  run (binRm orOp p p.osz.size rm (immV p.osz.size imm)) s

/-- `OR_Ev_Ibs` (R363). -/
def execOrEvIbs (p : Pfx) (rm : RM) (imm : Byte) (s : State) : Host.Outcome State Fault Refusal :=
  run (binRm orOp p p.osz.size rm (immS p.osz.size imm)) s

/-- `ADC_Eb_Gb` (R364). -/
def execAdcEbGb (p : Pfx) (rm : RM) (g : Reg) (s : State) : Host.Outcome State Fault Refusal :=
  run (binRmReg adcOp p .b rm g) s

/-- `ADC_Ev_Gv` (R364). -/
def execAdcEvGv (p : Pfx) (rm : RM) (g : Reg) (s : State) : Host.Outcome State Fault Refusal :=
  run (binRmReg adcOp p p.osz.size rm g) s

/-- `ADC_Gb_Eb` (R364). -/
def execAdcGbEb (p : Pfx) (g : Reg) (rm : RM) (s : State) : Host.Outcome State Fault Refusal :=
  run (binRegRm adcOp p .b g rm) s

/-- `ADC_Gv_Ev` (R364). -/
def execAdcGvEv (p : Pfx) (g : Reg) (rm : RM) (s : State) : Host.Outcome State Fault Refusal :=
  run (binRegRm adcOp p p.osz.size g rm) s

/-- `ADC_AL_Ib` (R364). -/
def execAdcAlIb (_p : Pfx) (imm : Byte) (s : State) : Host.Outcome State Fault Refusal :=
  run (binAcc adcOp .b imm) s

/-- `ADC_eAX_Iv` (R364). -/
def execAdcEaxIv (p : Pfx) (imm : Word) (s : State) : Host.Outcome State Fault Refusal :=
  run (binAcc adcOp p.osz.size (immV p.osz.size imm)) s

/-- `ADC_Eb_Ib` (R364). -/
def execAdcEbIb (p : Pfx) (rm : RM) (imm : Byte) (s : State) : Host.Outcome State Fault Refusal :=
  run (binRm adcOp p .b rm imm) s

/-- `ADC_Ev_Iv` (R364). -/
def execAdcEvIv (p : Pfx) (rm : RM) (imm : Word) (s : State) : Host.Outcome State Fault Refusal :=
  run (binRm adcOp p p.osz.size rm (immV p.osz.size imm)) s

/-- `ADC_Ev_Ibs` (R364). -/
def execAdcEvIbs (p : Pfx) (rm : RM) (imm : Byte) (s : State) : Host.Outcome State Fault Refusal :=
  run (binRm adcOp p p.osz.size rm (immS p.osz.size imm)) s

/-- `SBB_Eb_Gb` (R365). -/
def execSbbEbGb (p : Pfx) (rm : RM) (g : Reg) (s : State) : Host.Outcome State Fault Refusal :=
  run (binRmReg sbbOp p .b rm g) s

/-- `SBB_Ev_Gv` (R365). -/
def execSbbEvGv (p : Pfx) (rm : RM) (g : Reg) (s : State) : Host.Outcome State Fault Refusal :=
  run (binRmReg sbbOp p p.osz.size rm g) s

/-- `SBB_Gb_Eb` (R365). -/
def execSbbGbEb (p : Pfx) (g : Reg) (rm : RM) (s : State) : Host.Outcome State Fault Refusal :=
  run (binRegRm sbbOp p .b g rm) s

/-- `SBB_Gv_Ev` (R365). -/
def execSbbGvEv (p : Pfx) (g : Reg) (rm : RM) (s : State) : Host.Outcome State Fault Refusal :=
  run (binRegRm sbbOp p p.osz.size g rm) s

/-- `SBB_AL_Ib` (R365). -/
def execSbbAlIb (_p : Pfx) (imm : Byte) (s : State) : Host.Outcome State Fault Refusal :=
  run (binAcc sbbOp .b imm) s

/-- `SBB_eAX_Iv` (R365). -/
def execSbbEaxIv (p : Pfx) (imm : Word) (s : State) : Host.Outcome State Fault Refusal :=
  run (binAcc sbbOp p.osz.size (immV p.osz.size imm)) s

/-- `SBB_Eb_Ib` (R365). -/
def execSbbEbIb (p : Pfx) (rm : RM) (imm : Byte) (s : State) : Host.Outcome State Fault Refusal :=
  run (binRm sbbOp p .b rm imm) s

/-- `SBB_Ev_Iv` (R365). -/
def execSbbEvIv (p : Pfx) (rm : RM) (imm : Word) (s : State) : Host.Outcome State Fault Refusal :=
  run (binRm sbbOp p p.osz.size rm (immV p.osz.size imm)) s

/-- `SBB_Ev_Ibs` (R365). -/
def execSbbEvIbs (p : Pfx) (rm : RM) (imm : Byte) (s : State) : Host.Outcome State Fault Refusal :=
  run (binRm sbbOp p p.osz.size rm (immS p.osz.size imm)) s

/-- `AND_Eb_Gb` (R366). -/
def execAndEbGb (p : Pfx) (rm : RM) (g : Reg) (s : State) : Host.Outcome State Fault Refusal :=
  run (binRmReg andOp p .b rm g) s

/-- `AND_Ev_Gv` (R366). -/
def execAndEvGv (p : Pfx) (rm : RM) (g : Reg) (s : State) : Host.Outcome State Fault Refusal :=
  run (binRmReg andOp p p.osz.size rm g) s

/-- `AND_Gb_Eb` (R366). -/
def execAndGbEb (p : Pfx) (g : Reg) (rm : RM) (s : State) : Host.Outcome State Fault Refusal :=
  run (binRegRm andOp p .b g rm) s

/-- `AND_Gv_Ev` (R366). -/
def execAndGvEv (p : Pfx) (g : Reg) (rm : RM) (s : State) : Host.Outcome State Fault Refusal :=
  run (binRegRm andOp p p.osz.size g rm) s

/-- `AND_AL_Ib` (R366). -/
def execAndAlIb (_p : Pfx) (imm : Byte) (s : State) : Host.Outcome State Fault Refusal :=
  run (binAcc andOp .b imm) s

/-- `AND_eAX_Iv` (R366). -/
def execAndEaxIv (p : Pfx) (imm : Word) (s : State) : Host.Outcome State Fault Refusal :=
  run (binAcc andOp p.osz.size (immV p.osz.size imm)) s

/-- `AND_Eb_Ib` (R366). -/
def execAndEbIb (p : Pfx) (rm : RM) (imm : Byte) (s : State) : Host.Outcome State Fault Refusal :=
  run (binRm andOp p .b rm imm) s

/-- `AND_Ev_Iv` (R366). -/
def execAndEvIv (p : Pfx) (rm : RM) (imm : Word) (s : State) : Host.Outcome State Fault Refusal :=
  run (binRm andOp p p.osz.size rm (immV p.osz.size imm)) s

/-- `AND_Ev_Ibs` (R366). -/
def execAndEvIbs (p : Pfx) (rm : RM) (imm : Byte) (s : State) : Host.Outcome State Fault Refusal :=
  run (binRm andOp p p.osz.size rm (immS p.osz.size imm)) s

/-- `SUB_Eb_Gb` (R367). -/
def execSubEbGb (p : Pfx) (rm : RM) (g : Reg) (s : State) : Host.Outcome State Fault Refusal :=
  run (binRmReg subOp p .b rm g) s

/-- `SUB_Ev_Gv` (R367). -/
def execSubEvGv (p : Pfx) (rm : RM) (g : Reg) (s : State) : Host.Outcome State Fault Refusal :=
  run (binRmReg subOp p p.osz.size rm g) s

/-- `SUB_Gb_Eb` (R367). -/
def execSubGbEb (p : Pfx) (g : Reg) (rm : RM) (s : State) : Host.Outcome State Fault Refusal :=
  run (binRegRm subOp p .b g rm) s

/-- `SUB_Gv_Ev` (R367). -/
def execSubGvEv (p : Pfx) (g : Reg) (rm : RM) (s : State) : Host.Outcome State Fault Refusal :=
  run (binRegRm subOp p p.osz.size g rm) s

/-- `SUB_AL_Ib` (R367). -/
def execSubAlIb (_p : Pfx) (imm : Byte) (s : State) : Host.Outcome State Fault Refusal :=
  run (binAcc subOp .b imm) s

/-- `SUB_eAX_Iv` (R367). -/
def execSubEaxIv (p : Pfx) (imm : Word) (s : State) : Host.Outcome State Fault Refusal :=
  run (binAcc subOp p.osz.size (immV p.osz.size imm)) s

/-- `SUB_Eb_Ib` (R367). -/
def execSubEbIb (p : Pfx) (rm : RM) (imm : Byte) (s : State) : Host.Outcome State Fault Refusal :=
  run (binRm subOp p .b rm imm) s

/-- `SUB_Ev_Iv` (R367). -/
def execSubEvIv (p : Pfx) (rm : RM) (imm : Word) (s : State) : Host.Outcome State Fault Refusal :=
  run (binRm subOp p p.osz.size rm (immV p.osz.size imm)) s

/-- `SUB_Ev_Ibs` (R367). -/
def execSubEvIbs (p : Pfx) (rm : RM) (imm : Byte) (s : State) : Host.Outcome State Fault Refusal :=
  run (binRm subOp p p.osz.size rm (immS p.osz.size imm)) s

/-- `XOR_Eb_Gb` (R368). -/
def execXorEbGb (p : Pfx) (rm : RM) (g : Reg) (s : State) : Host.Outcome State Fault Refusal :=
  run (binRmReg xorOp p .b rm g) s

/-- `XOR_Ev_Gv` (R368). -/
def execXorEvGv (p : Pfx) (rm : RM) (g : Reg) (s : State) : Host.Outcome State Fault Refusal :=
  run (binRmReg xorOp p p.osz.size rm g) s

/-- `XOR_Gb_Eb` (R368). -/
def execXorGbEb (p : Pfx) (g : Reg) (rm : RM) (s : State) : Host.Outcome State Fault Refusal :=
  run (binRegRm xorOp p .b g rm) s

/-- `XOR_Gv_Ev` (R368). -/
def execXorGvEv (p : Pfx) (g : Reg) (rm : RM) (s : State) : Host.Outcome State Fault Refusal :=
  run (binRegRm xorOp p p.osz.size g rm) s

/-- `XOR_AL_Ib` (R368). -/
def execXorAlIb (_p : Pfx) (imm : Byte) (s : State) : Host.Outcome State Fault Refusal :=
  run (binAcc xorOp .b imm) s

/-- `XOR_eAX_Iv` (R368). -/
def execXorEaxIv (p : Pfx) (imm : Word) (s : State) : Host.Outcome State Fault Refusal :=
  run (binAcc xorOp p.osz.size (immV p.osz.size imm)) s

/-- `XOR_Eb_Ib` (R368). -/
def execXorEbIb (p : Pfx) (rm : RM) (imm : Byte) (s : State) : Host.Outcome State Fault Refusal :=
  run (binRm xorOp p .b rm imm) s

/-- `XOR_Ev_Iv` (R368). -/
def execXorEvIv (p : Pfx) (rm : RM) (imm : Word) (s : State) : Host.Outcome State Fault Refusal :=
  run (binRm xorOp p p.osz.size rm (immV p.osz.size imm)) s

/-- `XOR_Ev_Ibs` (R368). -/
def execXorEvIbs (p : Pfx) (rm : RM) (imm : Byte) (s : State) : Host.Outcome State Fault Refusal :=
  run (binRm xorOp p p.osz.size rm (immS p.osz.size imm)) s

/-- `CMP_Eb_Gb` (R369). -/
def execCmpEbGb (p : Pfx) (rm : RM) (g : Reg) (s : State) : Host.Outcome State Fault Refusal :=
  run (testRmReg subOp p .b rm g) s

/-- `CMP_Ev_Gv` (R369). -/
def execCmpEvGv (p : Pfx) (rm : RM) (g : Reg) (s : State) : Host.Outcome State Fault Refusal :=
  run (testRmReg subOp p p.osz.size rm g) s

/-- `CMP_Gb_Eb` (R369). -/
def execCmpGbEb (p : Pfx) (g : Reg) (rm : RM) (s : State) : Host.Outcome State Fault Refusal :=
  run (testRegRm subOp p .b g rm) s

/-- `CMP_Gv_Ev` (R369). -/
def execCmpGvEv (p : Pfx) (g : Reg) (rm : RM) (s : State) : Host.Outcome State Fault Refusal :=
  run (testRegRm subOp p p.osz.size g rm) s

/-- `CMP_AL_Ib` (R369). -/
def execCmpAlIb (_p : Pfx) (imm : Byte) (s : State) : Host.Outcome State Fault Refusal :=
  run (testAcc subOp .b imm) s

/-- `CMP_eAX_Iv` (R369). -/
def execCmpEaxIv (p : Pfx) (imm : Word) (s : State) : Host.Outcome State Fault Refusal :=
  run (testAcc subOp p.osz.size (immV p.osz.size imm)) s

/-- `CMP_Eb_Ib` (R369). -/
def execCmpEbIb (p : Pfx) (rm : RM) (imm : Byte) (s : State) : Host.Outcome State Fault Refusal :=
  run (testRm subOp p .b rm imm) s

/-- `CMP_Ev_Iv` (R369). -/
def execCmpEvIv (p : Pfx) (rm : RM) (imm : Word) (s : State) : Host.Outcome State Fault Refusal :=
  run (testRm subOp p p.osz.size rm (immV p.osz.size imm)) s

/-- `CMP_Ev_Ibs` (R369). -/
def execCmpEvIbs (p : Pfx) (rm : RM) (imm : Byte) (s : State) : Host.Outcome State Fault Refusal :=
  run (testRm subOp p p.osz.size rm (immS p.osz.size imm)) s

/-- `TEST_Eb_Gb` (R370). -/
def execTestEbGb (p : Pfx) (rm : RM) (g : Reg) (s : State) : Host.Outcome State Fault Refusal :=
  run (testRmReg andOp p .b rm g) s

/-- `TEST_Ev_Gv` (R370). -/
def execTestEvGv (p : Pfx) (rm : RM) (g : Reg) (s : State) : Host.Outcome State Fault Refusal :=
  run (testRmReg andOp p p.osz.size rm g) s

/-- `TEST_AL_Ib` (R370). -/
def execTestAlIb (_p : Pfx) (imm : Byte) (s : State) : Host.Outcome State Fault Refusal :=
  run (testAcc andOp .b imm) s

/-- `TEST_eAX_Iv` (R370). -/
def execTestEaxIv (p : Pfx) (imm : Word) (s : State) : Host.Outcome State Fault Refusal :=
  run (testAcc andOp p.osz.size (immV p.osz.size imm)) s

/-- `TEST_Eb_Ib` (R370). -/
def execTestEbIb (p : Pfx) (rm : RM) (imm : Byte) (s : State) : Host.Outcome State Fault Refusal :=
  run (testRm andOp p .b rm imm) s

/-- `TEST_Ev_Iv` (R370). -/
def execTestEvIv (p : Pfx) (rm : RM) (imm : Word) (s : State) : Host.Outcome State Fault Refusal :=
  run (testRm andOp p p.osz.size rm (immV p.osz.size imm)) s

/-- `INC_Eb` (R371). -/
def execIncEb (p : Pfx) (rm : RM) (s : State) : Host.Outcome State Fault Refusal :=
  run (unRm incOp p .b rm) s

/-- `INC_Ev` (R371). -/
def execIncEv (p : Pfx) (rm : RM) (s : State) : Host.Outcome State Fault Refusal :=
  run (unRm incOp p p.osz.size rm) s

/-- `DEC_Eb` (R372). -/
def execDecEb (p : Pfx) (rm : RM) (s : State) : Host.Outcome State Fault Refusal :=
  run (unRm decOp p .b rm) s

/-- `DEC_Ev` (R372). -/
def execDecEv (p : Pfx) (rm : RM) (s : State) : Host.Outcome State Fault Refusal :=
  run (unRm decOp p p.osz.size rm) s

/-- `NEG_Eb` (R373). -/
def execNegEb (p : Pfx) (rm : RM) (s : State) : Host.Outcome State Fault Refusal :=
  run (unRm negOp p .b rm) s

/-- `NEG_Ev` (R373). -/
def execNegEv (p : Pfx) (rm : RM) (s : State) : Host.Outcome State Fault Refusal :=
  run (unRm negOp p p.osz.size rm) s

/-- `NOT_Eb` (R374). -/
def execNotEb (p : Pfx) (rm : RM) (s : State) : Host.Outcome State Fault Refusal :=
  run (unRm notOp p .b rm) s

/-- `NOT_Ev` (R374). -/
def execNotEv (p : Pfx) (rm : RM) (s : State) : Host.Outcome State Fault Refusal :=
  run (unRm notOp p p.osz.size rm) s

/-- `INC_r16_r32` (R371). -/
def execIncR (p : Pfx) (r : Reg) (s : State) : Host.Outcome State Fault Refusal :=
  run (unRm incOp p p.osz.size (.reg r)) s

/-- `DEC_r16_r32` (R372). -/
def execDecR (p : Pfx) (r : Reg) (s : State) : Host.Outcome State Fault Refusal :=
  run (unRm decOp p p.osz.size (.reg r)) s

end Sys2Proof.Machine
end

