-- ==== Sys2Proof/Machine/Bit.lean ====
section
/-! DEFINITION. Bit test, bit scan and byte swap (R389 to R396). -/
namespace Sys2Proof.Machine

open Sys2Proof

/-- What BT, BTS, BTR, BTC do to the selected bit (R390 to R393). -/
inductive BitAct
  | test | set | reset | complement
  deriving DecidableEq, Repr

/-- The value with bit `i` replaced. -/
def BitAct.apply (a : BitAct) {w : Nat} (x : BitVec w) (i : Nat) : BitVec w :=
  match a with
  | .test => x
  | .set => x ||| BitVec.twoPow w i
  | .reset => x &&& ~~~(BitVec.twoPow w i)
  | .complement => x ^^^ BitVec.twoPow w i

/-- The flags of a bit test: CF the bit, ZF unchanged, the others undefined (R390). -/
def bitFlags (b : Bool) : FlagSet := { cf := .to b, pf := .undef, af := .undef, zf := .keep, sf := .undef, of := .undef }

/-- A bit operation on a destination. -/
def bitModify (a : BitAct) (sz : Size) (i : Nat) : Modify sz := fun x s =>
  (a.apply x i, s.putFlags (bitFlags (x.getLsbD i)))

/-- A bit of memory at an offset of a segment: BT without LOCK only reads (R390, C26). -/
def bitMem (a : BitAct) (p : Pfx) (seg : Seg) (off : Word) (sz : Size) (i : Nat) : M Unit :=
  if a = .test ∧ p.lock = false then do
    let x ← loadVal seg off sz
    update (·.putFlags (bitFlags (x.getLsbD i)))
  else modifyAt p.lock seg off sz (bitModify a sz i)

/-- A bit operation with an immediate offset: modulo the width (R389). -/
def bitRmImm (a : BitAct) (p : Pfx) (rm : RM) (imm : Byte) : M Unit := do
  let sz := p.osz.size
  match rm with
  | .reg r => modifyRm p sz (.reg r) (bitModify a sz (imm.toNat % sz.bits))
  | .mem m => do
    let s ← get
    bitMem a p (segFor p m) (effAddr m s.gpr) sz (imm.toNat % sz.bits)

/-- The address of the unit that holds bit `o` of a bit string (R389): the offset is signed, the address wraps as the
operand's addresses do (log 22). -/
def bitUnit (m : MemOp) (sz : Size) (ea : Word) (o : BitVec sz.bits) : Word :=
  wrapAddr m (ea + BitVec.ofInt 32 (o.toInt / sz.bits * sz.bytes))

/-- A bit operation with a register offset (R389). -/
def bitRmReg (a : BitAct) (p : Pfx) (rm : RM) (g : Reg) : M Unit := do
  let sz := p.osz.size
  let s ← get
  let o := s.view sz g
  match rm with
  | .reg r => modifyRm p sz (.reg r) (bitModify a sz (o.toNat % sz.bits))
  | .mem m => bitMem a p (segFor p m) (bitUnit m sz (effAddr m s.gpr) o) sz (o.toNat % sz.bits)

/-- The index of the lowest 1 bit at or above `i`, looking at `n` bits. -/
def lowestBit {w : Nat} (x : BitVec w) : Nat → Nat → Nat
  | 0, i => i
  | n + 1, i => if x.getLsbD i then i else lowestBit x n (i + 1)

/-- The index of the highest 1 bit below `n`. -/
def highestBit {w : Nat} (x : BitVec w) : Nat → Nat
  | 0 => 0
  | n + 1 => if x.getLsbD n then n else highestBit x n

/-- The flags of a bit scan: ZF alone is defined (R394). -/
def scanFlags (z : Bool) : FlagSet :=
  { cf := .undef, pf := .undef, af := .undef, zf := .to z, sf := .undef, of := .undef }

/-- A bit scan into a register: a zero source leaves an undefined value (R394, R395). -/
def State.scan (s : State) (sz : Size) (g : Reg) (x : BitVec sz.bits) (idx : Nat) : State :=
  if x = 0 then
    ((s.putView sz g (Config.freeBits sz.bits s.draws)).setDraws (s.draws + 1)).putFlags (scanFlags true)
  else (s.putView sz g (BitVec.ofNat sz.bits idx)).putFlags (scanFlags false)

/-- BSF (R394). -/
def scanForward (p : Pfx) (g : Reg) (rm : RM) : M Unit := do
  let x ← loadRm p p.osz.size rm
  update (·.scan p.osz.size g x (lowestBit x p.osz.size.bits 0))

/-- BSR (R395). -/
def scanReverse (p : Pfx) (g : Reg) (rm : RM) : M Unit := do
  let x ← loadRm p p.osz.size rm
  update (·.scan p.osz.size g x (highestBit x p.osz.size.bits))

/-- The bytes of a doubleword in the opposite order (R396). -/
def swapBytes (x : Word) : Word :=
  x.extractLsb' 0 8 ++ (x.extractLsb' 8 8 ++ (x.extractLsb' 16 8 ++ x.extractLsb' 24 8))

/-- BSWAP (R396): with a 16-bit operand size the result is undefined, and the whole register is free (log 23). -/
def byteSwap (o : OSz) (r : Reg) : M Unit :=
  match o with
  | .o32 => update fun s => s.putReg r (swapBytes (s.reg r))
  | .o16 => update fun s => (s.putReg r (Config.freeBits 32 s.draws)).setDraws (s.draws + 1)

/-! ### The instructions -/

/-- `BT_Ev_Gv` (R390). -/
def execBtEvGv (p : Pfx) (rm : RM) (g : Reg) (s : State) : Host.Outcome State Fault Refusal :=
  run (bitRmReg .test p rm g) s

/-- `BT_Ev_Ib` (R390). -/
def execBtEvIb (p : Pfx) (rm : RM) (imm : Byte) (s : State) : Host.Outcome State Fault Refusal :=
  run (bitRmImm .test p rm imm) s

/-- `BTS_Ev_Gv` (R391). -/
def execBtsEvGv (p : Pfx) (rm : RM) (g : Reg) (s : State) : Host.Outcome State Fault Refusal :=
  run (bitRmReg .set p rm g) s

/-- `BTS_Ev_Ib` (R391). -/
def execBtsEvIb (p : Pfx) (rm : RM) (imm : Byte) (s : State) : Host.Outcome State Fault Refusal :=
  run (bitRmImm .set p rm imm) s

/-- `BTR_Ev_Gv` (R392). -/
def execBtrEvGv (p : Pfx) (rm : RM) (g : Reg) (s : State) : Host.Outcome State Fault Refusal :=
  run (bitRmReg .reset p rm g) s

/-- `BTR_Ev_Ib` (R392). -/
def execBtrEvIb (p : Pfx) (rm : RM) (imm : Byte) (s : State) : Host.Outcome State Fault Refusal :=
  run (bitRmImm .reset p rm imm) s

/-- `BTC_Ev_Gv` (R393). -/
def execBtcEvGv (p : Pfx) (rm : RM) (g : Reg) (s : State) : Host.Outcome State Fault Refusal :=
  run (bitRmReg .complement p rm g) s

/-- `BTC_Ev_Ib` (R393). -/
def execBtcEvIb (p : Pfx) (rm : RM) (imm : Byte) (s : State) : Host.Outcome State Fault Refusal :=
  run (bitRmImm .complement p rm imm) s

/-- `BSF_Gv_Ev` (R394). -/
def execBsfGvEv (p : Pfx) (g : Reg) (rm : RM) (s : State) : Host.Outcome State Fault Refusal :=
  run (scanForward p g rm) s

/-- `BSR_Gv_Ev` (R395). -/
def execBsrGvEv (p : Pfx) (g : Reg) (rm : RM) (s : State) : Host.Outcome State Fault Refusal :=
  run (scanReverse p g rm) s

/-- `BSWAP_r32` (R396). -/
def execBswapR (p : Pfx) (r : Reg) (s : State) : Host.Outcome State Fault Refusal :=
  run (byteSwap p.osz r) s

end Sys2Proof.Machine
end

