-- ==== Sys2Proof/Machine/Control.lean ====
section
/-! DEFINITION. Control transfer (R450 to R459). -/
namespace Sys2Proof.Machine

open Sys2Proof

/-- The next instruction, or a near transfer (R453). -/
def branchIf (b : Bool) (o : OSz) (t : Word) : M Unit := if b then jumpNear o t else pure ()

/-- JMP rel8 (R451). -/
def jmpShort (p : Pfx) (d : Byte) : M Unit := do
  let s ← get
  jumpNear p.osz (s.rel8 d)

/-- JMP relv (R451). -/
def jmpLong (p : Pfx) (d : Word) : M Unit := do
  let s ← get
  jumpNear p.osz (s.relv p.osz d)

/-- JMP near indirect (R452). -/
def jmpIndirect (p : Pfx) (rm : RM) : M Unit := do
  let t ← loadRm p p.osz.size rm
  jumpNear p.osz (t.setWidth 32)

/-- Jcc rel8 (R453). -/
def jccShort (p : Pfx) (cc : Cond) (d : Byte) : M Unit := do
  let s ← get
  branchIf (condHolds cc s.flags) p.osz (s.rel8 d)

/-- Jcc relv (R453). -/
def jccLong (p : Pfx) (cc : Cond) (d : Word) : M Unit := do
  let s ← get
  branchIf (condHolds cc s.flags) p.osz (s.relv p.osz d)

/-- JCXZ and JECXZ (R454): the address size chooses the register. -/
def jcxz (p : Pfx) (d : Byte) : M Unit := do
  let s ← get
  branchIf (s.view p.asz.size .ecx == 0) p.osz (s.rel8 d)

/-- LOOP, LOOPE, LOOPNE (R455): `cond` is what ZF must satisfy. -/
def loopOp (p : Pfx) (cond : Bool → Bool) (d : Byte) : M Unit := do
  let s ← get
  let n := s.view p.asz.size .ecx - 1
  update (·.putView p.asz.size .ecx n)
  branchIf (n != 0 && cond s.flags.zf) p.osz (s.rel8 d)

/-- A near call (R456, R457): the target is checked, the return address pushed, then EIP changes. -/
def callNear (o : OSz) (t : Word) : M Unit := do
  let s ← get
  check (s.targetOk (truncTarget o t)) vGP (some 0)
  pushv o s.eip
  update (goto (truncTarget o t))

/-- CALL relv (R456). -/
def callRel (p : Pfx) (d : Word) : M Unit := do
  let s ← get
  callNear p.osz (s.relv p.osz d)

/-- CALL near indirect (R457). -/
def callIndirect (p : Pfx) (rm : RM) : M Unit := do
  let t ← loadRm p p.osz.size rm
  callNear p.osz (t.setWidth 32)

/-- RET near (R458): `n` more bytes are dropped after the pop. -/
def retNear (o : OSz) (n : Nat) : M Unit := do
  let t ← popv o
  let s ← get
  check (s.targetOk t) vGP (some 0)
  moveSp n
  update (goto t)

/-- JMP far indirect (R459): the offset, then the selector; natural alignment 4 (R617). -/
def jmpFarMem (p : Pfx) (m : MemOp) : M Unit := do
  let s ← get
  let vs ← loadBytes (segFor p m) (effAddr m s.gpr) (p.osz.bytes + 2) 4
  farJump (ofLe 16 (vs.drop p.osz.bytes)) (ofLe 32 (vs.take p.osz.bytes))

/-! ### The instructions -/

/-- `JMP_rel8` (R451). -/
def execJmpRel8 (p : Pfx) (imm : Byte) (s : State) : Host.Outcome State Fault Refusal :=
  run (jmpShort p imm) s

/-- `JMP_relv` (R451). -/
def execJmpRelv (p : Pfx) (imm : Word) (s : State) : Host.Outcome State Fault Refusal :=
  run (jmpLong p imm) s

/-- `JMP_Ev` (R452). -/
def execJmpEv (p : Pfx) (rm : RM) (s : State) : Host.Outcome State Fault Refusal :=
  run (jmpIndirect p rm) s

/-- `Jcc_rel8__70+cc` (R453). -/
def execJccRel8 (p : Pfx) (cc : Cond) (imm : Byte) (s : State) : Host.Outcome State Fault Refusal :=
  run (jccShort p cc imm) s

/-- `Jcc_relv__0F_80+cc` (R453). -/
def execJccRelv (p : Pfx) (cc : Cond) (imm : Word) (s : State) : Host.Outcome State Fault Refusal :=
  run (jccLong p cc imm) s

/-- `JCXZ_JECXZ_rel8` (R454). -/
def execJcxzRel8 (p : Pfx) (imm : Byte) (s : State) : Host.Outcome State Fault Refusal :=
  run (jcxz p imm) s

/-- `LOOP_rel8` (R455). -/
def execLoopRel8 (p : Pfx) (imm : Byte) (s : State) : Host.Outcome State Fault Refusal :=
  run (loopOp p (fun _ => true) imm) s

/-- `LOOPE_rel8` (R455). -/
def execLoopeRel8 (p : Pfx) (imm : Byte) (s : State) : Host.Outcome State Fault Refusal :=
  run (loopOp p (fun z => z) imm) s

/-- `LOOPNE_rel8` (R455). -/
def execLoopneRel8 (p : Pfx) (imm : Byte) (s : State) : Host.Outcome State Fault Refusal :=
  run (loopOp p (fun z => !z) imm) s

/-- `CALL_relv` (R456). -/
def execCallRelv (p : Pfx) (imm : Word) (s : State) : Host.Outcome State Fault Refusal :=
  run (callRel p imm) s

/-- `CALL_Ev` (R457). -/
def execCallEv (p : Pfx) (rm : RM) (s : State) : Host.Outcome State Fault Refusal :=
  run (callIndirect p rm) s

/-- `RET` (R458). -/
def execRet (p : Pfx) (s : State) : Host.Outcome State Fault Refusal :=
  run (retNear p.osz 0) s

/-- `RET_Iw` (R458). -/
def execRetIw (p : Pfx) (imm : Half) (s : State) : Host.Outcome State Fault Refusal :=
  run (retNear p.osz imm.toNat) s

/-- `JMP_ptr16_v` (R459). -/
def execJmpPtr (p : Pfx) (off : Word) (sel : Half) (s : State) : Host.Outcome State Fault Refusal :=
  run (farJump sel (truncTarget p.osz off)) s

/-- `JMP_Mp` (R459). -/
def execJmpMp (p : Pfx) (m : MemOp) (s : State) : Host.Outcome State Fault Refusal :=
  run (jmpFarMem p m) s

end Sys2Proof.Machine
end

