-- ==== Sys2Proof/Machine/Data.lean ====
section
/-! DEFINITION. Data movement and the stack (R420 to R443). -/
namespace Sys2Proof.Machine

open Sys2Proof

/-! ### Moves -/

/-- `E ← G` (R420). -/
def movRmReg (p : Pfx) (sz : Size) (rm : RM) (g : Reg) : M Unit := do
  let s ← get
  storeRm p sz rm (s.view sz g)

/-- `G ← E` (R420). -/
def movRegRm (p : Pfx) (sz : Size) (g : Reg) (rm : RM) : M Unit := do
  let v ← loadRm p sz rm
  update (·.putView sz g v)

/-- The segment of an A0h to A3h operand: DS, overridable (R268). -/
def moffsSeg (p : Pfx) : Seg := p.seg.getD .ds

/-- `AL/AX/EAX ← Mem[seg:moffs]` (R421). -/
def movAccMoffs (p : Pfx) (sz : Size) (off : Word) : M Unit := do
  let v ← loadVal (moffsSeg p) (moffs p off) sz
  update (·.putView sz .eax v)

/-- `Mem[seg:moffs] ← AL/AX/EAX` (R421). -/
def movMoffsAcc (p : Pfx) (sz : Size) (off : Word) : M Unit := do
  let s ← get
  storeVal (moffsSeg p) (moffs p off) sz (s.view sz .eax)

/-- A selector into a register: with a 32-bit operand size the upper half is undefined (R423). -/
def State.putSel (s : State) (o : OSz) (r : Reg) (sel : Half) : State :=
  match o with
  | .o16 => s.putView .w r sel
  | .o32 => (s.putReg r (Config.freeBits 16 s.draws ++ sel)).setDraws (s.draws + 1)

/-- MOV from a segment register (R423). -/
def movRmSeg (p : Pfx) (rm : RM) (sr : Seg) : M Unit := do
  let s ← get
  match rm with
  | .reg r => update (·.putSel p.osz r (s.seg.get sr).sel)
  | .mem m => storeMem p .w m (s.seg.get sr).sel

/-- A load of SS holds interrupts off for one instruction; a second one in a row does not extend it (R424, R61). -/
def State.shadowSs (s : State) : State :=
  s.setIntr { s.intr with shadow := if s.scr.afterSs then .none else .ss }

/-- What follows a load of a segment register. -/
def State.afterSegLoad (s : State) (sr : Seg) : State := if sr = .ss then s.shadowSs else s

/-- MOV to a segment register (R424). -/
def movSegRm (p : Pfx) (sr : Seg) (rm : RM) : M Unit := do
  let v ← loadRm p .w rm
  loadSeg sr v
  update (·.afterSegLoad sr)

/-- MOVZX (R425). -/
def movzx (p : Pfx) (src : Size) (g : Reg) (rm : RM) : M Unit := do
  let v ← loadRm p src rm
  update (·.putView p.osz.size g (v.setWidth p.osz.size.bits))

/-- MOVSX (R426). -/
def movsx (p : Pfx) (src : Size) (g : Reg) (rm : RM) : M Unit := do
  let v ← loadRm p src rm
  update (·.putView p.osz.size g (v.signExtend p.osz.size.bits))

/-- Exchange two registers (R427). -/
def State.swapRegs (s : State) (sz : Size) (r g : Reg) : State :=
  (s.putView sz r (s.view sz g)).putView sz g (s.view sz r)

/-- XCHG E, G (R427): with memory one locked operation, LOCK prefix or not. -/
def xchgRm (p : Pfx) (sz : Size) (rm : RM) (g : Reg) : M Unit := do
  match rm with
  | .reg r => update (·.swapRegs sz r g)
  | .mem m => do
    let s ← get
    modifyAt true (segFor p m) (effAddr m s.gpr) sz fun x t => (t.view sz g, t.putView sz g x)

/-- LEA (R429): the offset alone, no access. -/
def lea (p : Pfx) (g : Reg) (m : MemOp) : M Unit :=
  update fun s => s.putView p.osz.size g ((effAddr m s.gpr).setWidth p.osz.size.bits)

/-- CBW and CWDE (R430). -/
def convertAcc (o : OSz) : M Unit :=
  match o with
  | .o16 => update fun s => s.putView .w .eax ((s.view .b .eax).signExtend 16)
  | .o32 => update fun s => s.putReg .eax ((s.view .w .eax).signExtend 32)

/-- CWD and CDQ (R431): the sign of the accumulator in every bit. -/
def signAcc (o : OSz) : M Unit :=
  update fun s => s.putView o.size .edx (if (s.view o.size .eax).msb then BitVec.allOnes o.size.bits else 0)

/-- SETcc (R432). -/
def setCond (p : Pfx) (cc : Cond) (rm : RM) : M Unit := do
  let s ← get
  storeRm p .b rm (if condHolds cc s.flags then 1 else 0)

/-! ### Stack -/

/-- PUSH of an r/m operand: the source is read first (R441). -/
def pushRm (p : Pfx) (rm : RM) : M Unit := do
  let v ← loadRm p p.osz.size rm
  pushv p.osz (v.setWidth 32)

/-- POP into an r/m operand: a memory address uses the incremented stack pointer (R442). -/
def popRm (p : Pfx) (rm : RM) : M Unit := do
  let v ← popv p.osz
  storeRm p p.osz.size rm (v.setWidth p.osz.size.bits)

/-- POP SS (R443). -/
def popSs (o : OSz) : M Unit := do
  let v ← popv o
  loadSeg .ss (v.extractLsb' 0 16)
  update (·.shadowSs)

/-! ### The instructions -/

/-- `MOV_Eb_Gb` (R420). -/
def execMovEbGb (p : Pfx) (rm : RM) (g : Reg) (s : State) : Host.Outcome State Fault Refusal :=
  run (movRmReg p .b rm g) s

/-- `MOV_Ev_Gv` (R420). -/
def execMovEvGv (p : Pfx) (rm : RM) (g : Reg) (s : State) : Host.Outcome State Fault Refusal :=
  run (movRmReg p p.osz.size rm g) s

/-- `MOV_Gb_Eb` (R420). -/
def execMovGbEb (p : Pfx) (g : Reg) (rm : RM) (s : State) : Host.Outcome State Fault Refusal :=
  run (movRegRm p .b g rm) s

/-- `MOV_Gv_Ev` (R420). -/
def execMovGvEv (p : Pfx) (g : Reg) (rm : RM) (s : State) : Host.Outcome State Fault Refusal :=
  run (movRegRm p p.osz.size g rm) s

/-- `MOV_AL_moffs8` (R421). -/
def execMovAlMoffs (p : Pfx) (imm : Word) (s : State) : Host.Outcome State Fault Refusal :=
  run (movAccMoffs p .b imm) s

/-- `MOV_eAX_moffsv` (R421). -/
def execMovEaxMoffs (p : Pfx) (imm : Word) (s : State) : Host.Outcome State Fault Refusal :=
  run (movAccMoffs p p.osz.size imm) s

/-- `MOV_moffs8_AL` (R421). -/
def execMovMoffsAl (p : Pfx) (imm : Word) (s : State) : Host.Outcome State Fault Refusal :=
  run (movMoffsAcc p .b imm) s

/-- `MOV_moffsv_eAX` (R421). -/
def execMovMoffsEax (p : Pfx) (imm : Word) (s : State) : Host.Outcome State Fault Refusal :=
  run (movMoffsAcc p p.osz.size imm) s

/-- `MOV_Eb_Ib` (R422). -/
def execMovEbIb (p : Pfx) (rm : RM) (imm : Byte) (s : State) : Host.Outcome State Fault Refusal :=
  run (storeRm p .b rm imm) s

/-- `MOV_Ev_Iv` (R422). -/
def execMovEvIv (p : Pfx) (rm : RM) (imm : Word) (s : State) : Host.Outcome State Fault Refusal :=
  run (storeRm p p.osz.size rm (immV p.osz.size imm)) s

/-- `MOV_r8_Ib` (R422). -/
def execMovR8Ib (p : Pfx) (r : Reg) (imm : Byte) (s : State) : Host.Outcome State Fault Refusal :=
  run (storeRm p .b (.reg r) imm) s

/-- `MOV_r16_r32_Iv` (R422). -/
def execMovRIv (p : Pfx) (r : Reg) (imm : Word) (s : State) : Host.Outcome State Fault Refusal :=
  run (storeRm p p.osz.size (.reg r) (immV p.osz.size imm)) s

/-- `MOV_Ew_Sreg` (R423). -/
def execMovEwSreg (p : Pfx) (rm : RM) (sr : Seg) (s : State) : Host.Outcome State Fault Refusal :=
  run (movRmSeg p rm sr) s

/-- `MOV_Sreg_Ew` (R424). -/
def execMovSregEw (p : Pfx) (sr : Seg) (rm : RM) (s : State) : Host.Outcome State Fault Refusal :=
  run (movSegRm p sr rm) s

/-- `MOVZX_Gv_Eb` (R425). -/
def execMovzxGvEb (p : Pfx) (g : Reg) (rm : RM) (s : State) : Host.Outcome State Fault Refusal :=
  run (movzx p .b g rm) s

/-- `MOVZX_Gv_Ew` (R425). -/
def execMovzxGvEw (p : Pfx) (g : Reg) (rm : RM) (s : State) : Host.Outcome State Fault Refusal :=
  run (movzx p .w g rm) s

/-- `MOVSX_Gv_Eb` (R426). -/
def execMovsxGvEb (p : Pfx) (g : Reg) (rm : RM) (s : State) : Host.Outcome State Fault Refusal :=
  run (movsx p .b g rm) s

/-- `MOVSX_Gv_Ew` (R426). -/
def execMovsxGvEw (p : Pfx) (g : Reg) (rm : RM) (s : State) : Host.Outcome State Fault Refusal :=
  run (movsx p .w g rm) s

/-- `XCHG_Eb_Gb` (R427). -/
def execXchgEbGb (p : Pfx) (rm : RM) (g : Reg) (s : State) : Host.Outcome State Fault Refusal :=
  run (xchgRm p .b rm g) s

/-- `XCHG_Ev_Gv` (R427). -/
def execXchgEvGv (p : Pfx) (rm : RM) (g : Reg) (s : State) : Host.Outcome State Fault Refusal :=
  run (xchgRm p p.osz.size rm g) s

/-- `XCHG_eAX_r16_r32__90+r__r____0` (R427). -/
def execXchgEaxR (p : Pfx) (r : Reg) (s : State) : Host.Outcome State Fault Refusal :=
  run (xchgRm p p.osz.size (.reg .eax) r) s

/-- `NOP` (R428). -/
def execNop (_p : Pfx) (s : State) : Host.Outcome State Fault Refusal :=
  run (pure ()) s

/-- `LEA_Gv_M` (R429). -/
def execLeaGvM (p : Pfx) (g : Reg) (m : MemOp) (s : State) : Host.Outcome State Fault Refusal :=
  run (lea p g m) s

/-- `CBW_CWDE` (R430). -/
def execCbw (p : Pfx) (s : State) : Host.Outcome State Fault Refusal :=
  run (convertAcc p.osz) s

/-- `CWD_CDQ` (R431). -/
def execCwd (p : Pfx) (s : State) : Host.Outcome State Fault Refusal :=
  run (signAcc p.osz) s

/-- `SETcc_Eb__0F_90+cc` (R432). -/
def execSetccEb (p : Pfx) (cc : Cond) (rm : RM) (s : State) : Host.Outcome State Fault Refusal :=
  run (setCond p cc rm) s

/-- `PUSH_r16_r32` (R441). -/
def execPushR (p : Pfx) (r : Reg) (s : State) : Host.Outcome State Fault Refusal :=
  run (pushRm p (.reg r)) s

/-- `PUSH_Ev` (R441). -/
def execPushEv (p : Pfx) (rm : RM) (s : State) : Host.Outcome State Fault Refusal :=
  run (pushRm p rm) s

/-- `PUSH_Iv` (R441). -/
def execPushIv (p : Pfx) (imm : Word) (s : State) : Host.Outcome State Fault Refusal :=
  run (pushv p.osz imm) s

/-- `PUSH_Ibs` (R441). -/
def execPushIbs (p : Pfx) (imm : Byte) (s : State) : Host.Outcome State Fault Refusal :=
  run (pushv p.osz (imm.signExtend 32)) s

/-- `POP_r16_r32` (R442). -/
def execPopR (p : Pfx) (r : Reg) (s : State) : Host.Outcome State Fault Refusal :=
  run (popRm p (.reg r)) s

/-- `POP_Ev` (R442). -/
def execPopEv (p : Pfx) (rm : RM) (s : State) : Host.Outcome State Fault Refusal :=
  run (popRm p rm) s

/-- `POP_SS` (R443). -/
def execPopSs (p : Pfx) (s : State) : Host.Outcome State Fault Refusal :=
  run (popSs p.osz) s

end Sys2Proof.Machine
end

