-- ==== Sys2Proof/Machine/FpNum.lean ====
section
/-! DEFINITION. Floating-point numbers (R530, R531): the classes of an 80-bit value, exact values, rounding, and the three
memory formats. -/
namespace Sys2Proof.Machine

open Sys2Proof

/-! ### The 80-bit format -/

/-- The classes of R530. -/
inductive FpClass
  | zero | denormal | normal | inf | qnan | snan | unsupported
  deriving DecidableEq, Repr

/-- Sign of an 80-bit value. -/
def fpNeg (v : Ext) : Bool := v.getLsbD 79
/-- Biased exponent. -/
def fpExp (v : Ext) : Nat := (v.extractLsb' 64 15).toNat
/-- Significand, with its integer bit. -/
def fpSig (v : Ext) : BitVec 64 := v.extractLsb' 0 64

/-- The class of an 80-bit value (R530); pseudo-denormals are denormals. -/
def fpClass (v : Ext) : FpClass :=
  if fpExp v = 0 then (if fpSig v = 0 then .zero else .denormal)
  else if !(fpSig v).getLsbD 63 then .unsupported
  else if fpExp v = 32767 then
    (if (fpSig v).extractLsb' 0 63 = 0 then .inf else if (fpSig v).getLsbD 62 then .qnan else .snan)
  else .normal

/-- Build an 80-bit value. -/
def fpMake (neg : Bool) (exp : Nat) (sig : BitVec 64) : Ext :=
  (BitVec.ofBool neg ++ (BitVec.ofNat 15 exp ++ sig) : BitVec (1 + (15 + 64)))

/-- The real indefinite (R530). -/
def fpIndefinite : Ext := 0xFFFFC000000000000000
/-- An infinity. -/
def fpInf (neg : Bool) : Ext := fpMake neg 32767 0x8000000000000000
/-- A zero. -/
def fpZero (neg : Bool) : Ext := fpMake neg 0 0
/-- A NaN made quiet (R535). -/
def fpQuiet (v : Ext) : Ext := v ||| BitVec.twoPow 80 62
/-- Replace the sign. -/
def fpWithSign (v : Ext) (neg : Bool) : Ext := fpMake neg (fpExp v) (fpSig v)

/-- A NaN of either kind. -/
def fpIsNan (v : Ext) : Bool := fpClass v == .qnan || fpClass v == .snan

/-- The tag of a value (R534): zero, special or valid. -/
def fpTag (v : Ext) : BitVec 2 :=
  match fpClass v with
  | .zero => 1
  | .normal => 0
  | .denormal => 2
  | .inf => 2
  | .qnan => 2
  | .snan => 2
  | .unsupported => 2

/-! ### Exact values -/

/-- An exact finite value: plus or minus `man` times two to the `exp`. -/
structure Num where
  neg : Bool
  man : Nat
  exp : Int
  deriving DecidableEq, Repr

/-- The exact value of a finite 80-bit value (R530). -/
def fpNum (v : Ext) : Num :=
  { neg := fpNeg v, man := (fpSig v).toNat, exp := (max (fpExp v) 1 : Int) - 16383 - 63 }

/-- The signed significand of a value at a lower exponent. -/
def Num.scaled (x : Num) (e : Int) : Int :=
  let m : Int := (x.man * 2 ^ (x.exp - e).toNat : Nat)
  if x.neg then -m else m

/-- A signed integer times a power of two. -/
def Num.ofInt (m : Int) (e : Int) : Num := { neg := decide (m < 0), man := m.natAbs, exp := e }

/-- The exact sum; its sign when zero is not meaningful. -/
def Num.add (x y : Num) : Num := Num.ofInt (x.scaled (min x.exp y.exp) + y.scaled (min x.exp y.exp)) (min x.exp y.exp)

/-- The exact product. -/
def Num.mul (x y : Num) : Num := { neg := x.neg != y.neg, man := x.man * y.man, exp := x.exp + y.exp }

/-- The opposite. -/
def Num.negate (x : Num) : Num := { x with neg := !x.neg }

/-- The exact comparison. -/
def Num.lt (x y : Num) : Bool := decide (x.scaled (min x.exp y.exp) < y.scaled (min x.exp y.exp))

/-- The number of significand bits. -/
def Num.size (x : Num) : Nat := if x.man = 0 then 0 else Nat.log2 x.man + 1

/-! ### Rounding -/

/-- A rounded significand: a multiple of `unit`, whether it differs from the exact value, and whether it is larger in
magnitude. -/
structure Rounded where
  man : Nat
  inexact : Bool
  up : Bool
  deriving DecidableEq, Repr

/-- The magnitude grows in this rounding mode (R531): `rem` of `2 * half` is left over. -/
def roundsUp (rc : BitVec 2) (neg : Bool) (q rem half : Nat) : Bool :=
  match rc.toNat with
  | 0 => decide (half < rem) || (rem == half && q % 2 == 1)
  | 1 => neg && rem != 0
  | 2 => !neg && rem != 0
  | _ => false

/-- Round a value to a multiple of two to the `unit` (R531). -/
def Num.roundTo (x : Num) (unit : Int) (rc : BitVec 2) : Rounded :=
  if unit ≤ x.exp then { man := x.man * 2 ^ (x.exp - unit).toNat, inexact := false, up := false }
  else
    let k := (unit - x.exp).toNat
    let q := x.man / 2 ^ k
    let rem := x.man % 2 ^ k
    let up := roundsUp rc x.neg q rem (2 ^ (k - 1))
    { man := if up then q + 1 else q, inexact := rem != 0, up := up }

/-- The exponent of the leading bit of a value that is not zero. -/
def Num.top (x : Num) : Int := x.exp + x.size - 1

/-- `round(v, p, rc)` with unbounded exponent (R531): the rounded value, inexact, roundup. -/
def Num.round (x : Num) (p : Nat) (rc : BitVec 2) : Num × Bool × Bool :=
  let unit := x.top - (p - 1)
  let r := x.roundTo unit rc
  ({ neg := x.neg, man := r.man, exp := unit }, r.inexact, r.up)

/-! ### Formats -/

/-- A format: significand bits, least and greatest exponent (R530). -/
structure Fmt where
  p : Nat
  emin : Int
  emax : Int
  deriving DecidableEq, Repr

/-- real_32. -/
def Fmt.single : Fmt := { p := 24, emin := -126, emax := 127 }
/-- real_64. -/
def Fmt.double : Fmt := { p := 53, emin := -1022, emax := 1023 }
/-- A stack register at precision `p`. -/
def Fmt.ext (p : Nat) : Fmt := { p := p, emin := -16382, emax := 16383 }

/-- Exponent and significand fields of a value a format with `p` significand bits holds exactly. -/
def Num.fields (x : Num) (p : Nat) (emin : Int) : Nat × Nat :=
  if x.man = 0 then (0, 0)
  else if x.top < emin then (0, (x.roundTo (emin - (p - 1)) 0).man)
  else ((x.top - emin + 1).toNat, (x.roundTo (x.top - (p - 1)) 0).man)

/-- The 80-bit value of a number it holds exactly. -/
def Num.toExt (x : Num) : Ext := fpMake x.neg (x.fields 64 (-16382)).1 (BitVec.ofNat 64 (x.fields 64 (-16382)).2)

/-- The real_32 bits of a number it holds exactly. -/
def Num.toSingle (x : Num) : BitVec 32 :=
  let f := x.fields 24 (-126)
  (BitVec.ofBool x.neg ++ (BitVec.ofNat 8 f.1 ++ BitVec.ofNat 23 f.2) : BitVec (1 + (8 + 23)))

/-- The real_64 bits of a number it holds exactly. -/
def Num.toDouble (x : Num) : BitVec 64 :=
  let f := x.fields 53 (-1022)
  (BitVec.ofBool x.neg ++ (BitVec.ofNat 11 f.1 ++ BitVec.ofNat 52 f.2) : BitVec (1 + (11 + 52)))

/-- The extended value of an integer (R543). -/
def extOfInt (i : Int) : Ext := (Num.ofInt i 0).toExt

/-- A source operand: its extended value, and whether it is a denormal of its own format (R536). -/
structure Opnd where
  v : Ext
  den : Bool
  deriving DecidableEq, Repr

/-- A register operand. -/
def Opnd.ofExt (v : Ext) : Opnd := { v := v, den := fpClass v == .denormal }

/-- A real_32 or real_64 operand (R540): `e` exponent bits, `f` fraction bits; a NaN keeps its kind and payload. -/
def Opnd.ofSmall (neg : Bool) (exp frac e f : Nat) : Opnd :=
  if exp = 2 ^ e - 1 then
    { v := fpMake neg 32767 (BitVec.twoPow 64 63 ||| (BitVec.ofNat 64 frac <<< (63 - f))), den := false }
  else
    let m := if exp = 0 then frac else 2 ^ f + frac
    { v := ({ neg := neg, man := m, exp := (max exp 1 : Int) - (2 ^ (e - 1) - 1) - f : Num }).toExt,
      den := exp = 0 && frac != 0 }

/-- The operand a real_32 holds. -/
def Opnd.ofSingle (w : BitVec 32) : Opnd :=
  Opnd.ofSmall w.msb (w.extractLsb' 23 8).toNat (w.extractLsb' 0 23).toNat 8 23

/-- The operand a real_64 holds. -/
def Opnd.ofDouble (w : BitVec 64) : Opnd :=
  Opnd.ofSmall w.msb (w.extractLsb' 52 11).toNat (w.extractLsb' 0 52).toNat 11 52

/-- The real_32 of a value that is not finite: infinity, or a NaN with its fraction cut (R541). -/
def specialSingle (v : Ext) : BitVec 32 :=
  (BitVec.ofBool (fpNeg v) ++ (BitVec.allOnes 8 ++ (fpSig v).extractLsb' 40 23) : BitVec (1 + (8 + 23)))

/-- The real_64 of a value that is not finite (R541). -/
def specialDouble (v : Ext) : BitVec 64 :=
  (BitVec.ofBool (fpNeg v) ++ (BitVec.allOnes 11 ++ (fpSig v).extractLsb' 11 52) : BitVec (1 + (11 + 52)))

end Sys2Proof.Machine
end

