-- ==== Sys2Proof/Machine/FpOps.lean ====
section
/-! DEFINITION. The floating-point unit (R532 to R537): the register stack, exception flags and masks, and the operations the
instructions share. Each operation is a function on the floating-point state and a draw index. -/
namespace Sys2Proof.Machine

open Sys2Proof

/-! ### Registers and stack -/

/-- A physical register (R52). -/
def FpRegs.get (r : FpRegs) (i : BitVec 3) : Ext :=
  match i.toNat with
  | 0 => r.r0 | 1 => r.r1 | 2 => r.r2 | 3 => r.r3 | 4 => r.r4 | 5 => r.r5 | 6 => r.r6 | _ => r.r7

/-- Write a physical register. -/
def FpRegs.put (r : FpRegs) (i : BitVec 3) (v : Ext) : FpRegs :=
  match i.toNat with
  | 0 => { r with r0 := v } | 1 => { r with r1 := v } | 2 => { r with r2 := v } | 3 => { r with r3 := v }
  | 4 => { r with r4 := v } | 5 => { r with r5 := v } | 6 => { r with r6 := v } | _ => { r with r7 := v }

/-- The physical register of `ST(i)` (R52). -/
def Fpu.phys (f : Fpu) (i : BitVec 3) : BitVec 3 := f.sw.top + i

/-- `ST(i)`. -/
def Fpu.st (f : Fpu) (i : BitVec 3) : Ext := f.regs.get (f.phys i)

/-- The tag of a physical register (R55). -/
def tagAt (tw : Half) (i : BitVec 3) : BitVec 2 := (tw >>> (2 * i.toNat)).extractLsb' 0 2

/-- Replace the tag of a physical register. -/
def putTag (tw : Half) (i : BitVec 3) (t : BitVec 2) : Half :=
  (tw &&& ~~~((3 : Half) <<< (2 * i.toNat))) ||| (t.setWidth 16 <<< (2 * i.toNat))

/-- `ST(i)` is empty. -/
def Fpu.empty (f : Fpu) (i : BitVec 3) : Bool := tagAt f.tw (f.phys i) == 3

/-- Write `ST(i)` and its tag (R534). -/
def Fpu.setSt (f : Fpu) (i : BitVec 3) (v : Ext) : Fpu :=
  { f with regs := f.regs.put (f.phys i) v, tw := putTag f.tw (f.phys i) (fpTag v) }

/-- Replace TOP. -/
def Fpu.setTop (f : Fpu) (t : BitVec 3) : Fpu := { f with sw := { f.sw with top := t } }

/-- `pop()` (R534). -/
def Fpu.pop (f : Fpu) : Fpu := ({ f with tw := putTag f.tw (f.phys 0) 3 }).setTop (f.sw.top + 1)

/-- The push of a value onto a register known to be empty (R534). -/
def Fpu.push (f : Fpu) (v : Ext) : Fpu := (f.setTop (f.sw.top - 1)).setSt 0 v

/-! ### Exceptions -/

/-- The exception flags an instruction raises (R536). -/
structure FpEx where
  ie : Bool := false
  de : Bool := false
  ze : Bool := false
  oe : Bool := false
  ue : Bool := false
  pe : Bool := false
  sf : Bool := false
  deriving DecidableEq, Repr

/-- A mask bit of the control word (R53). -/
def Fpu.mask (f : Fpu) (i : Nat) : Bool := f.cw.getLsbD i

/-- Rounding control (R53). -/
def Fpu.rc (f : Fpu) : BitVec 2 := f.cw.extractLsb' 10 2

/-- The precision of arithmetic: 24, 53 or 64 bits (R531). -/
def Fpu.prec (f : Fpu) : Nat :=
  match (f.cw.extractLsb' 8 2).toNat with
  | 0 => 24
  | 2 => 53
  | _ => 64

/-- A pre-computation exception is not masked, so nothing is stored, popped or changed (R536). -/
def Fpu.blocked (f : Fpu) (x : FpEx) : Bool := (x.ie && !f.mask 0) || (x.de && !f.mask 1) || (x.ze && !f.mask 2)

/-- ES and B: some exception flag is set while its mask is 0 (R537). -/
def Fpu.summary (f : Fpu) : Bool :=
  (f.sw.ie && !f.mask 0) || (f.sw.de && !f.mask 1) || (f.sw.ze && !f.mask 2) || (f.sw.oe && !f.mask 3)
    || (f.sw.ue && !f.mask 4) || (f.sw.pe && !f.mask 5)

/-- Some flag is raised. -/
def FpEx.any (x : FpEx) : Bool := x.ie || x.de || x.ze || x.oe || x.ue || x.pe || x.sf

/-- Raise flags: they are sticky, and ES and B follow when any was set (R536, R537). -/
def Fpu.note (f : Fpu) (x : FpEx) : Fpu :=
  if x.any then
    let w := { f.sw with ie := f.sw.ie || x.ie, de := f.sw.de || x.de, ze := f.sw.ze || x.ze, oe := f.sw.oe || x.oe,
                         ue := f.sw.ue || x.ue, pe := f.sw.pe || x.pe, sf := f.sw.sf || x.sf }
    let g := { f with sw := w }
    if g.summary then { g with sw := { g.sw with es := true, b := true } } else g
  else f

/-- Replace C1. -/
def Fpu.setC1 (f : Fpu) (b : Bool) : Fpu := { f with sw := { f.sw with c1 := b } }

/-- Replace C3, C2, C0. -/
def Fpu.setCond (f : Fpu) (c3 c2 c0 : Bool) : Fpu := { f with sw := { f.sw with c3 := c3, c2 := c2, c0 := c0 } }

/-- C0, C2, C3 undefined after arithmetic (R536): three draws. -/
def Fpu.loose (f : Fpu) (n : Nat) : Fpu := f.setCond (Config.freeBit n) (Config.freeBit (n + 1)) (Config.freeBit (n + 2))

/-- Stack underflow (R534). -/
def FpEx.stack : FpEx := { ie := true, sf := true }
/-- Invalid operation. -/
def FpEx.invalid : FpEx := { ie := true }

/-- What an operation gives: the flags it raises, C1, and its value unless nothing is to be stored. -/
structure FpRes where
  ex : FpEx
  c1 : Bool
  val : Option Ext
  deriving DecidableEq, Repr

/-- A result without a value: an unmasked pre-computation exception. -/
def FpRes.stop (x : FpEx) : FpRes := { ex := x, c1 := false, val := none }

/-- An exact result. -/
def FpRes.exact (x : FpEx) (v : Ext) : FpRes := { ex := x, c1 := false, val := some v }

/-! ### Results in the extended range (R537) -/

/-- The masked result of an overflow is infinite, not the largest finite value (R537). -/
def overflowsToInf (rc : BitVec 2) (neg : Bool) : Bool :=
  match rc.toNat with
  | 0 => true
  | 1 => neg
  | 2 => !neg
  | _ => false

/-- The largest finite number of a format. -/
def Fmt.largest (m : Fmt) (neg : Bool) : Num := { neg := neg, man := 2 ^ m.p - 1, exp := m.emax - (m.p - 1) }

/-- An exponent moved into range for an unmasked overflow or underflow (R537); where 24576 is not enough the spec gives no
value and it is free (log 25). -/
def wrapped (x : Num) (by_ : Int) (n : Nat) : Ext :=
  let y : Num := { x with exp := x.exp + by_ }
  if -16382 ≤ y.top ∧ y.top ≤ 16383 then y.toExt else Config.freeBits 80 n

/-- Deliver an exact value that is not zero to a register at precision `p` (R537). DESIGN CHOICE (log 53): under PC = 24 or 53
R537 does not say what "a denormal of the destination" and "largest finite" are; a masked underflow rounds to a multiple of
2^(-16382-(p-1)), and the largest finite number is the one of `p` bits. -/
def Fpu.deliver (f : Fpu) (p : Nat) (x : Num) (ex : FpEx) (n : Nat) : FpRes :=
  let (r, inexact, up) := x.round p f.rc
  if 16383 < r.top then
    if f.mask 3 then
      let inf := overflowsToInf f.rc x.neg
      { ex := { ex with oe := true, pe := true }, c1 := inf,
        val := some (if inf then fpInf x.neg else ((Fmt.ext p).largest x.neg).toExt) }
    else { ex := { ex with oe := true, pe := inexact }, c1 := up, val := some (wrapped r (-24576) n) }
  else if r.top < -16382 then
    if f.mask 4 then
      let unit : Int := -16382 - (p - 1)
      let d := x.roundTo unit f.rc
      { ex := { ex with ue := d.inexact, pe := d.inexact }, c1 := d.up,
        val := some ({ neg := x.neg, man := d.man, exp := unit : Num }).toExt }
    else { ex := { ex with ue := true, pe := inexact }, c1 := up, val := some (wrapped r 24576 n) }
  else { ex := { ex with pe := inexact }, c1 := up, val := some r.toExt }

/-! ### NaN operands (R535) -/

/-- The NaN that results from two operands of which at least one is a NaN. -/
def chooseNan (a b : Ext) : Ext :=
  if fpIsNan a && fpIsNan b then
    if (fpSig b).toNat < (fpSig a).toNat then fpQuiet a
    else if (fpSig a).toNat < (fpSig b).toNat then fpQuiet b
    else if fpNeg a then fpQuiet b else fpQuiet a
  else if fpIsNan a then fpQuiet a
  else fpQuiet b

/-- An operand that raises IE: a signalling NaN or an unsupported encoding (R536). -/
def fpBad (v : Ext) : Bool := fpClass v == .snan || fpClass v == .unsupported

/-- The first steps of R536 for two operands: the result, if a NaN or an unsupported operand settles it. DESIGN CHOICE (log
53): a denormal beside a signalling NaN or an unsupported operand raises no DE, the masked IE having settled the result. -/
def Fpu.nanStep (f : Fpu) (a b : Ext) (ex : FpEx) : Option FpRes :=
  let ex := { ex with ie := ex.ie || fpBad a || fpBad b }
  if fpBad a || fpBad b || fpIsNan a || fpIsNan b then
    some (if f.blocked ex then .stop ex
          else .exact ex (if fpIsNan a || fpIsNan b then chooseNan a b else fpIndefinite))
  else none

/-! ### Arithmetic (R547 to R558) -/

/-- The operations of `arith`; `subr` is the reverse subtraction. -/
inductive FpArith
  | add | sub | subr | mul
  deriving DecidableEq, Repr

/-- The sign of an exact zero sum of operands with these signs (R531, R547). -/
def zeroSumNeg (rc : BitVec 2) (x y : Bool) : Bool := if x == y then x else rc == 1

/-- The sum of two operands that are not NaNs: none where it is invalid. -/
def Fpu.sum (f : Fpu) (a b : Ext) (ex : FpEx) (n : Nat) : Option FpRes :=
  if fpClass a = .inf then
    if fpClass b = .inf ∧ fpNeg a ≠ fpNeg b then none else some (.exact ex a)
  else if fpClass b = .inf then some (.exact ex b)
  else
    let x := (fpNum a).add (fpNum b)
    if x.man = 0 then
      some (.exact ex (fpZero (if fpClass a = .zero ∧ fpClass b = .zero then zeroSumNeg f.rc (fpNeg a) (fpNeg b)
                               else f.rc == 1)))
    else some (f.deliver f.prec x ex n)

/-- The product of two operands that are not NaNs: none where it is invalid. -/
def Fpu.product (f : Fpu) (a b : Ext) (ex : FpEx) (n : Nat) : Option FpRes :=
  let neg := fpNeg a != fpNeg b
  if (fpClass a = .inf ∧ fpClass b = .zero) ∨ (fpClass a = .zero ∧ fpClass b = .inf) then none
  else if fpClass a = .inf ∨ fpClass b = .inf then some (.exact ex (fpInf neg))
  else if fpClass a = .zero ∨ fpClass b = .zero then some (.exact ex (fpZero neg))
  else some (f.deliver f.prec ((fpNum a).mul (fpNum b)) ex n)

/-- The operation on operands that are not NaNs. -/
def Fpu.compute (f : Fpu) (op : FpArith) (a b : Ext) (ex : FpEx) (n : Nat) : Option FpRes :=
  match op with
  | .add => f.sum a b ex n
  | .sub => f.sum a (fpWithSign b (!fpNeg b)) ex n
  | .subr => f.sum b (fpWithSign a (!fpNeg a)) ex n
  | .mul => f.product a b ex n

/-- `arith` once the operands are known (R536 steps 2 to 8, R547). `ex` holds a masked stack fault. -/
def Fpu.arith (f : Fpu) (op : FpArith) (a b : Opnd) (ex : FpEx) (n : Nat) : FpRes :=
  match f.nanStep a.v b.v ex with
  | some r => r
  | none =>
    let den := { ex with de := a.den || b.den }
    match f.compute op a.v b.v den n with
    | none =>
      let bad := { ex with ie := true }
      if f.blocked bad then .stop bad else .exact bad fpIndefinite
    | some r => if f.blocked den then .stop den else r

/-- A register operand, with real indefinite in the place of an empty one (R534). -/
def Fpu.operand (f : Fpu) (i : BitVec 3) : Opnd := Opnd.ofExt (if f.empty i then fpIndefinite else f.st i)

/-- Store a result in `ST(i)`, and pop unless the instruction stopped (R536, R548). -/
def Fpu.finish (f : Fpu) (i : BitVec 3) (pop : Bool) (r : FpRes) : Fpu :=
  let g := (f.setC1 r.c1).note r.ex
  match r.val with
  | none => g
  | some v => if pop then (g.setSt i v).pop else g.setSt i v

/-- `ST(dst) ← ST(dst) op ST(src)`: a stack underflow is looked for first (R534, R536). -/
def Fpu.arithRegs (f : Fpu) (op : FpArith) (dst src : BitVec 3) (pop : Bool) (n : Nat) : Fpu :=
  let ex : FpEx := if f.empty dst || f.empty src then .stack else {}
  let r := if f.blocked ex then .stop ex else f.arith op (f.operand dst) (f.operand src) ex (n + 3)
  (f.finish dst pop r).loose n

/-- `ST(0) ← ST(0) op m`. -/
def Fpu.arithMem (f : Fpu) (op : FpArith) (m : Opnd) (n : Nat) : Fpu :=
  let ex : FpEx := if f.empty 0 then .stack else {}
  let r := if f.blocked ex then .stop ex else f.arith op (f.operand 0) m ex (n + 3)
  (f.finish 0 false r).loose n

/-! ### Loads and exchange (R540 to R546) -/

/-- `push(v)` with its overflow check (R534). -/
def Fpu.pushChecked (f : Fpu) (v : Ext) : Fpu :=
  if f.empty 7 then f.push v
  else
    let g := (f.setC1 true).note .stack
    if f.mask 0 then g.push fpIndefinite else g

/-- FLD real_32 and real_64 (R540): a signalling NaN raises IE, a denormal DE. DESIGN CHOICE (log 53): with the stack full the
stack fault settles the result, and a denormal raises no DE beside it. C0, C2 and C3, of which R540 to R546 say nothing for
loads, stores and FXCH, keep their values (DESIGN CHOICE, log 53). -/
def Fpu.loadReal (f : Fpu) (m : Opnd) : Fpu :=
  let f0 := f.setC1 false
  if !f.empty 7 then f0.pushChecked fpIndefinite
  else
    let ex : FpEx := { ie := fpClass m.v == .snan, de := m.den }
    let g := f0.note ex
    if f.blocked ex then g else g.push (if fpIsNan m.v then fpQuiet m.v else m.v)

/-- FLD real_80 and FILD (R540, R543): no exception but the stack fault. -/
def Fpu.loadExact (f : Fpu) (v : Ext) : Fpu := (f.setC1 false).pushChecked v

/-- FLD ST(i) (R540). -/
def Fpu.loadSt (f : Fpu) (i : BitVec 3) : Fpu :=
  let f0 := f.setC1 false
  if f.empty i then
    let g := f0.note .stack
    if f.mask 0 then g.pushChecked fpIndefinite else g
  else f0.pushChecked (f.st i)

/-- FXCH (R546): an empty register is first given the real indefinite. -/
def Fpu.exchange (f : Fpu) (i : BitVec 3) : Fpu :=
  let f0 := f.setC1 false
  let ex : FpEx := if f.empty 0 || f.empty i then .stack else {}
  let g := f0.note ex
  if f.blocked ex then g else (g.setSt 0 (f.operand i).v).setSt i (f.operand 0).v

/-! ### Stores (R541, R542, R544, R545) -/

/-- What a store does: the new floating-point state, and the bytes unless the store is suppressed. -/
abbrev FpStore := Fpu × Option (List Byte)

/-- Finish a store: flags, C1, and the pop of FSTP and FISTP, skipped with the store (R542). -/
def Fpu.stored (f : Fpu) (pop : Bool) (ex : FpEx) (c1 : Bool) (bytes : Option (List Byte)) : FpStore :=
  let g := (f.setC1 c1).note ex
  match bytes with
  | none => (g, none)
  | some bs => (if pop then g.pop else g, some bs)

/-- A memory format of a real store: its range and its encodings. -/
structure RealFmt where
  fmt : Fmt
  finite : Num → List Byte
  special : Ext → List Byte

/-- real_32. -/
def RealFmt.single : RealFmt :=
  { fmt := .single, finite := fun x => toLe 4 x.toSingle, special := fun v => toLe 4 (specialSingle v) }

/-- real_64. -/
def RealFmt.double : RealFmt :=
  { fmt := .double, finite := fun x => toLe 8 x.toDouble, special := fun v => toLe 8 (specialDouble v) }

/-- The store of an exact value that is not zero, rounded to a memory format (R537, R541). DESIGN CHOICE (log 53): an unmasked
overflow or underflow, which stores nothing, sets OE or UE alone; R537 names PE there for a register destination only. -/
def Fpu.storeFinite (f : Fpu) (m : RealFmt) (x : Num) (pop : Bool) : FpStore :=
  let (r, inexact, up) := x.round m.fmt.p f.rc
  if m.fmt.emax < r.top then
    if f.mask 3 then
      let inf := overflowsToInf f.rc x.neg
      f.stored pop { oe := true, pe := true } inf
        (some (if inf then m.special (fpInf x.neg) else m.finite (m.fmt.largest x.neg)))
    else f.stored pop { oe := true } false none
  else if r.top < m.fmt.emin then
    if f.mask 4 then
      let unit : Int := m.fmt.emin - (m.fmt.p - 1)
      let d := x.roundTo unit f.rc
      f.stored pop { ue := d.inexact, pe := d.inexact } d.up
        (some (m.finite { neg := x.neg, man := d.man, exp := unit }))
    else f.stored pop { ue := true } false none
  else f.stored pop { pe := inexact } up (some (m.finite r))

/-- FST and FSTP to real_32 and real_64 (R541). -/
def Fpu.storeReal (f : Fpu) (m : RealFmt) (pop : Bool) : FpStore :=
  if f.empty 0 then f.stored pop .stack false (if f.mask 0 then some (m.special fpIndefinite) else none)
  else
    let v := f.st 0
    match fpClass v with
    | .snan => f.stored pop .invalid false (if f.mask 0 then some (m.special (fpQuiet v)) else none)
    | .unsupported => f.stored pop .invalid false (if f.mask 0 then some (m.special fpIndefinite) else none)
    | .qnan => f.stored pop {} false (some (m.special v))
    | .inf => f.stored pop {} false (some (m.special v))
    | .zero => f.stored pop {} false (some (m.finite { neg := fpNeg v, man := 0, exp := 0 }))
    | .denormal => f.storeFinite m (fpNum v) pop
    | .normal => f.storeFinite m (fpNum v) pop

/-- FSTP real_80 (R542): the ten bytes as they are. -/
def Fpu.storeExt (f : Fpu) : FpStore :=
  if f.empty 0 then f.stored true .stack false (if f.mask 0 then some (toLe 10 fpIndefinite) else none)
  else f.stored true {} false (some (toLe 10 (f.st 0)))

/-- FST ST(i) and FSTP ST(i) (R541, R542). -/
def Fpu.storeSt (f : Fpu) (i : BitVec 3) (pop : Bool) : Fpu :=
  let ex : FpEx := if f.empty 0 then .stack else {}
  f.finish i pop (if f.blocked ex then .stop ex else .exact ex (f.operand 0).v)

/-- The integer indefinite of `n` bytes (R530). -/
def intIndefinite (n : Nat) : List Byte := toLe n (BitVec.twoPow 64 (8 * n - 1))

/-- FIST and FISTP to an integer of `n` bytes (R544). -/
def Fpu.storeInt (f : Fpu) (n : Nat) (pop : Bool) : FpStore :=
  let bad (ex : FpEx) := f.stored pop ex false (if f.mask 0 then some (intIndefinite n) else none)
  if f.empty 0 then bad .stack
  else
    match fpClass (f.st 0) with
    | .snan => bad .invalid
    | .qnan => bad .invalid
    | .unsupported => bad .invalid
    | .inf => bad .invalid
    | .zero => f.stored pop {} false (some (toLe n (0 : Qword)))
    | .denormal => intValue bad
    | .normal => intValue bad
where
  /-- The rounded integer, if it lies in the range of the destination. -/
  intValue (bad : FpEx → FpStore) : FpStore :=
    let x := fpNum (f.st 0)
    let r := x.roundTo 0 f.rc
    if r.man < 2 ^ (8 * n - 1) ∨ (x.neg ∧ r.man = 2 ^ (8 * n - 1)) then
      f.stored pop { pe := r.inexact } r.up
        (some (toLe n (BitVec.ofInt 64 (if x.neg then -(r.man : Int) else r.man))))
    else bad .invalid

/-! ### Compare and classify (R559 to R568) -/

/-- How many registers a comparison pops. -/
inductive Pops
  | zero | one | two
  deriving DecidableEq, Repr

/-- Pop that many. -/
def Fpu.popMany (f : Fpu) : Pops → Fpu
  | .zero => f
  | .one => f.pop
  | .two => f.pop.pop

/-- A comparison that an unmasked exception stopped: flags and C1 alone (R559). -/
def Fpu.compareStop (f : Fpu) (ex : FpEx) : Fpu := (f.setC1 false).note ex

/-- A comparison's result in C3, C2, C0, then the pops. -/
def Fpu.compareDone (f : Fpu) (ex : FpEx) (c3 c2 c0 : Bool) (pops : Pops) : Fpu :=
  (((f.setC1 false).note ex).setCond c3 c2 c0).popMany pops

/-- The order of the extended reals on operands that are not NaNs. -/
def extLt (a b : Ext) : Bool :=
  if fpClass a = .inf then fpNeg a && !(fpClass b = .inf && fpNeg b)
  else if fpClass b = .inf then !fpNeg b
  else (fpNum a).lt (fpNum b)

/-- `compare(ST(0), b, quiet)` (R559), `under` telling that an operand was an empty register. -/
def Fpu.compare (f : Fpu) (b : Opnd) (under quiet : Bool) (pops : Pops) : Fpu :=
  let a := f.operand 0
  if under || f.empty 0 then
    if f.mask 0 then f.compareDone .stack true true true pops else f.compareStop .stack
  else if fpBad a.v || fpBad b.v || fpIsNan a.v || fpIsNan b.v then
    let ex : FpEx := { ie := !quiet || fpBad a.v || fpBad b.v }
    if f.blocked ex then f.compareStop ex else f.compareDone ex true true true pops
  else
    let ex : FpEx := { de := a.den || b.den }
    if f.blocked ex then f.compareStop ex
    else if extLt b.v a.v then f.compareDone ex false false false pops
    else if extLt a.v b.v then f.compareDone ex false false true pops
    else f.compareDone ex true false false pops

/-- A comparison with `ST(i)`. -/
def Fpu.compareSt (f : Fpu) (i : BitVec 3) (quiet : Bool) (pops : Pops) : Fpu :=
  f.compare (f.operand i) (f.empty i) quiet pops

/-- FXAM (R568): C1 the sign, undefined for an empty register. -/
def Fpu.examine (f : Fpu) (n : Nat) : Fpu :=
  if f.empty 0 then (f.setC1 (Config.freeBit n)).setCond true false true
  else
    let g := f.setC1 (fpNeg (f.st 0))
    match fpClass (f.st 0) with
    | .unsupported => g.setCond false false false
    | .snan => g.setCond false false true
    | .qnan => g.setCond false false true
    | .normal => g.setCond false true false
    | .inf => g.setCond false true true
    | .zero => g.setCond true false false
    | .denormal => g.setCond true true false

/-! ### Sign, rounding, scaling (R569 to R575) -/

/-- FABS and FCHS: the new sign from the old (R569, R570). -/
def Fpu.signOp (f : Fpu) (sign : Bool → Bool) (n : Nat) : Fpu :=
  let ex : FpEx := if f.empty 0 then .stack else {}
  let v := (f.operand 0).v
  (f.finish 0 false (if f.blocked ex then .stop ex else .exact ex (fpWithSign v (sign (fpNeg v))))).loose n

/-- FRNDINT of an operand that is not empty or was replaced (R571). -/
def Fpu.roundInt (f : Fpu) (v : Ext) (ex : FpEx) : FpRes :=
  match f.nanStep v v ex with
  | some r => r
  | none =>
    match fpClass v with
    | .denormal =>
      let ex := { ex with de := true }
      if f.blocked ex then .stop ex else rounded ex
    | .normal => rounded ex
    | .zero => .exact ex v
    | .inf => .exact ex v
    | .qnan => .exact ex v
    | .snan => .exact ex v
    | .unsupported => .exact ex v
where
  /-- The rounded value; a zero keeps the sign. -/
  rounded (ex : FpEx) : FpRes :=
    let x := fpNum v
    let unit := max 0 x.exp
    let r := x.roundTo unit f.rc
    { ex := { ex with pe := r.inexact }, c1 := r.up, val := some ({ neg := x.neg, man := r.man, exp := unit : Num }).toExt }

/-- FRNDINT (R571). -/
def Fpu.frndint (f : Fpu) (n : Nat) : Fpu :=
  let ex : FpEx := if f.empty 0 then .stack else {}
  (f.finish 0 false (if f.blocked ex then .stop ex else f.roundInt (f.operand 0).v ex)).loose n

/-- The integer part of a finite value, cut off beyond 100000, where every scaling leaves the exponent range (R572). -/
def truncScale (x : Num) : Int :=
  let m : Nat := if 20 < x.top then 100000 else min 100000 (x.roundTo 0 3).man
  if x.neg then -(m : Int) else m

/-- FSCALE of finite operands (R572). -/
def Fpu.scaleFinite (f : Fpu) (a b : Ext) (ex : FpEx) (n : Nat) : FpRes :=
  let x := fpNum a
  f.deliver 64 { x with exp := x.exp + (if fpClass b = .zero then 0 else truncScale (fpNum b)) } ex n

/-- FSCALE on operands (R572). -/
def Fpu.scale (f : Fpu) (a b : Opnd) (ex : FpEx) (n : Nat) : FpRes :=
  match f.nanStep a.v b.v ex with
  | some r => r
  | none =>
    let den := { ex with de := a.den || b.den }
    let bad := { ex with ie := true }
    if fpClass b.v = .inf ∧ ((fpNeg b.v = false ∧ fpClass a.v = .zero) ∨ (fpNeg b.v ∧ fpClass a.v = .inf)) then
      (if f.blocked bad then .stop bad else .exact bad fpIndefinite)
    else if f.blocked den then .stop den
    else if fpClass b.v = .inf then .exact den (if fpNeg b.v then fpZero (fpNeg a.v) else fpInf (fpNeg a.v))
    else if fpClass a.v = .zero ∨ fpClass a.v = .inf then .exact den a.v
    else f.scaleFinite a.v b.v den n

/-- FSCALE (R572). -/
def Fpu.fscale (f : Fpu) (n : Nat) : Fpu :=
  let ex : FpEx := if f.empty 0 || f.empty 1 then .stack else {}
  (f.finish 0 false (if f.blocked ex then .stop ex else f.scale (f.operand 0) (f.operand 1) ex (n + 3))).loose n

/-- FXTRACT's two results, exponent and significand, or nothing; and its flags (R573). -/
def Fpu.extract (f : Fpu) (v : Ext) (ex : FpEx) : FpEx × Option (Ext × Ext) :=
  match f.nanStep v v ex with
  | some r => (r.ex, r.val.map fun q => (q, q))
  | none =>
    match fpClass v with
    | .zero =>
      let ex := { ex with ze := true }
      (ex, if f.blocked ex then none else some (fpInf true, v))
    | .inf => (ex, some (fpInf false, v))
    | .denormal =>
      let ex := { ex with de := true }
      (ex, if f.blocked ex then none else some (parts v))
    | .normal => (ex, some (parts v))
    | .qnan => (ex, some (v, v))
    | .snan => (ex, some (v, v))
    | .unsupported => (ex, some (v, v))
where
  /-- Exponent and significand of a finite value. -/
  parts (v : Ext) : Ext × Ext :=
    let x := fpNum v
    (extOfInt x.top, ({ x with exp := x.exp - x.top : Num }).toExt)

/-- FXTRACT (R573): an empty ST(0) is found before a full ST(7). With no room for the significand a masked overflow pushes the
real indefinite in its place (R534). -/
def Fpu.fxtract (f : Fpu) (n : Nat) : Fpu :=
  let under := f.empty 0
  let full := !f.empty 7
  let ex : FpEx := if under || full then .stack else {}
  let f0 := (f.setC1 (full && (f.mask 0 || !under))).loose n
  if f.blocked ex then f0.note ex
  else
    let r := f.extract (f.operand 0).v ex
    match r.2 with
    | none => f0.note r.1
    | some (e, m) => ((f0.note r.1).setSt 0 e).push (if full then fpIndefinite else m)

/-- FDECSTP (R574). -/
def Fpu.decTop (f : Fpu) (n : Nat) : Fpu := ((f.setTop (f.sw.top - 1)).setC1 false).loose n

end Sys2Proof.Machine
end

