-- ==== Sys2Proof/Machine/FpInstr.lean ====
section
/-! DEFINITION. Floating-point instructions (R540 to R590). -/
namespace Sys2Proof.Machine

open Sys2Proof

/-! ### What every floating-point instruction does first and last -/

/-- `report()` when an error is pending (R533, R590): MF, or ignored, or the processor waits. -/
def fpPending : M Unit := do
  let s ← get
  if s.fpu.sw.es then
    if s.ne then raise vMF none
    else if s.ignne then pure ()
    else throw .wait
  else pure ()

/-- The check of EM and TS (R532). -/
def fpPresent : M Unit := do
  let s ← get
  check (!(s.em || s.ts)) vNM none

/-- The checks of an ESC instruction without a memory operand (R532, R533). -/
def fpBegin : M Unit := do
  fpPresent
  fpPending

/-- A pending error stops the next instruction (R590). -/
def State.fpStops (s : State) : Bool := s.fpu.sw.es && (s.ne || !s.ignne)

/-- The checks of an ESC instruction with a memory operand, whose own checks are `operand`. DESIGN CHOICE (log 56): R533 puts a
pending error at the beginning of the instruction, R618 lists MF after the checks of the operand; the choice is free. -/
def fpBeginMem (operand : M (List Byt)) : M Unit := do
  fpPresent
  let s ← get
  if s.fpStops then do
    let late ← drawBit
    if late then do
      let _ ← operand
      fpPending
    else fpPending
  else pure ()

/-- The reserved precision control is refused (R531). -/
def fpPrecision : M Unit := do
  let s ← get
  doWhen (s.fpu.cw.extractLsb' 8 2 == 1) (refuse .precision)

/-- The checks of arithmetic on the stack alone. -/
def fpBeginArith : M Unit := do
  fpBegin
  fpPrecision

/-- Record the instruction in the exception pointers (R56, R537). -/
def State.fpNote (s : State) : State :=
  s.setFpu { s.fpu with fcs := s.seg.cs.sel, fip := s.scr.start, fop := s.scr.fop }

/-- Record the instruction and its memory operand. -/
def State.fpNoteMem (s : State) (seg : Seg) (off : Word) : State :=
  s.fpNote.setFpu { s.fpNote.fpu with fds := (s.seg.get seg).sel, fdp := off }

/-- Change the floating-point state; each instruction has eight draws of its own. -/
def State.onFpu (s : State) (f : Fpu → Nat → Fpu) : State := (s.setFpu (f s.fpu s.draws)).setDraws (s.draws + 8)

/-- An instruction on the stack alone. -/
def fpReg (f : Fpu → Nat → Fpu) : M Unit := do
  fpBegin
  update fun s => s.fpNote.onFpu f

/-- Arithmetic on the stack alone. -/
def fpRegArith (f : Fpu → Nat → Fpu) : M Unit := do
  fpBeginArith
  update fun s => s.fpNote.onFpu f

/-- Read a memory operand of `n` bytes with natural alignment `al` and go on with its bytes. -/
def fpRead (p : Pfx) (m : MemOp) (n al : Nat) (f : List Byte → Fpu → Nat → Fpu) : M Unit := do
  let s ← get
  let vs ← loadBytes (segFor p m) (effAddr m s.gpr) n al
  update fun t => (t.fpNoteMem (segFor p m) (effAddr m s.gpr)).onFpu (f vs)

/-- A load or a comparison with memory. -/
def fpMem (p : Pfx) (m : MemOp) (n al : Nat) (f : List Byte → Fpu → Nat → Fpu) : M Unit := do
  let s ← get
  fpBeginMem (openRead (segFor p m) (effAddr m s.gpr) n al)
  fpRead p m n al f

/-- Arithmetic with a memory operand. -/
def fpMemArith (p : Pfx) (m : MemOp) (n al : Nat) (f : List Byte → Fpu → Nat → Fpu) : M Unit := do
  let s ← get
  fpBeginMem (openRead (segFor p m) (effAddr m s.gpr) n al)
  fpPrecision
  fpRead p m n al f

/-- A store: the destination is checked first (R541), the bytes go last. -/
def fpWrite (p : Pfx) (m : MemOp) (n al : Nat) (f : Fpu → FpStore) : M Unit := do
  let s ← get
  fpBeginMem (openWrite (segFor p m) (effAddr m s.gpr) n al)
  let bs ← openWrite (segFor p m) (effAddr m s.gpr) n al
  let t ← get
  set ((t.fpNoteMem (segFor p m) (effAddr m s.gpr)).setFpu
    (f (t.fpNoteMem (segFor p m) (effAddr m s.gpr)).fpu).1)
  match (f (t.fpNoteMem (segFor p m) (effAddr m s.gpr)).fpu).2 with
  | none => pure ()
  | some vs => poke bs vs

/-- A real_32 operand. -/
def asSingle (vs : List Byte) : Opnd := Opnd.ofSingle (ofLe 32 vs)
/-- A real_64 operand. -/
def asDouble (vs : List Byte) : Opnd := Opnd.ofDouble (ofLe 64 vs)
/-- A signed integer operand of `n` bytes, converted exactly (R543, R549). -/
def asInt (n : Nat) (vs : List Byte) : Opnd := Opnd.ofExt (extOfInt (ofLe (8 * n) vs).toInt)

/-- FWAIT (R576): the MP and TS check, then a pending error. -/
def fwaitOp : M Unit := do
  let s ← get
  check (!(s.mp && s.ts)) vNM none
  fpPending

/-! ### The instructions -/

/-- `FADD_ST_ST_i` (R547). -/
def execFaddStSti (_p : Pfx) (i : BitVec 3) (s : State) : Host.Outcome State Fault Refusal :=
  run (fpRegArith fun f n => f.arithRegs .add 0 i false n) s

/-- `FADD_ST_i__ST` (R547). -/
def execFaddStiSt (_p : Pfx) (i : BitVec 3) (s : State) : Host.Outcome State Fault Refusal :=
  run (fpRegArith fun f n => f.arithRegs .add i 0 false n) s

/-- `FADDP_ST_i__ST` (R548). -/
def execFaddpStiSt (_p : Pfx) (i : BitVec 3) (s : State) : Host.Outcome State Fault Refusal :=
  run (fpRegArith fun f n => f.arithRegs .add i 0 true n) s

/-- `FADD_m32real` (R547). -/
def execFaddM32 (p : Pfx) (m : MemOp) (s : State) : Host.Outcome State Fault Refusal :=
  run (fpMemArith p m 4 4 fun vs f n => f.arithMem .add (asSingle vs) n) s

/-- `FADD_m64real` (R547). -/
def execFaddM64 (p : Pfx) (m : MemOp) (s : State) : Host.Outcome State Fault Refusal :=
  run (fpMemArith p m 8 8 fun vs f n => f.arithMem .add (asDouble vs) n) s

/-- `FIADD_m16int` (R549). -/
def execFiaddM16 (p : Pfx) (m : MemOp) (s : State) : Host.Outcome State Fault Refusal :=
  run (fpMemArith p m 2 2 fun vs f n => f.arithMem .add (asInt 2 vs) n) s

/-- `FIADD_m32int` (R549). -/
def execFiaddM32 (p : Pfx) (m : MemOp) (s : State) : Host.Outcome State Fault Refusal :=
  run (fpMemArith p m 4 4 fun vs f n => f.arithMem .add (asInt 4 vs) n) s

/-- `FSUB_ST_ST_i` (R550). -/
def execFsubStSti (_p : Pfx) (i : BitVec 3) (s : State) : Host.Outcome State Fault Refusal :=
  run (fpRegArith fun f n => f.arithRegs .sub 0 i false n) s

/-- `FSUB_ST_i__ST` (R550). -/
def execFsubStiSt (_p : Pfx) (i : BitVec 3) (s : State) : Host.Outcome State Fault Refusal :=
  run (fpRegArith fun f n => f.arithRegs .sub i 0 false n) s

/-- `FSUBP_ST_i__ST` (R551). -/
def execFsubpStiSt (_p : Pfx) (i : BitVec 3) (s : State) : Host.Outcome State Fault Refusal :=
  run (fpRegArith fun f n => f.arithRegs .sub i 0 true n) s

/-- `FSUB_m32real` (R550). -/
def execFsubM32 (p : Pfx) (m : MemOp) (s : State) : Host.Outcome State Fault Refusal :=
  run (fpMemArith p m 4 4 fun vs f n => f.arithMem .sub (asSingle vs) n) s

/-- `FSUB_m64real` (R550). -/
def execFsubM64 (p : Pfx) (m : MemOp) (s : State) : Host.Outcome State Fault Refusal :=
  run (fpMemArith p m 8 8 fun vs f n => f.arithMem .sub (asDouble vs) n) s

/-- `FISUB_m16int` (R552). -/
def execFisubM16 (p : Pfx) (m : MemOp) (s : State) : Host.Outcome State Fault Refusal :=
  run (fpMemArith p m 2 2 fun vs f n => f.arithMem .sub (asInt 2 vs) n) s

/-- `FISUB_m32int` (R552). -/
def execFisubM32 (p : Pfx) (m : MemOp) (s : State) : Host.Outcome State Fault Refusal :=
  run (fpMemArith p m 4 4 fun vs f n => f.arithMem .sub (asInt 4 vs) n) s

/-- `FSUBR_ST_ST_i` (R553). -/
def execFsubrStSti (_p : Pfx) (i : BitVec 3) (s : State) : Host.Outcome State Fault Refusal :=
  run (fpRegArith fun f n => f.arithRegs .subr 0 i false n) s

/-- `FSUBR_ST_i__ST` (R553). -/
def execFsubrStiSt (_p : Pfx) (i : BitVec 3) (s : State) : Host.Outcome State Fault Refusal :=
  run (fpRegArith fun f n => f.arithRegs .subr i 0 false n) s

/-- `FSUBRP_ST_i__ST` (R554). -/
def execFsubrpStiSt (_p : Pfx) (i : BitVec 3) (s : State) : Host.Outcome State Fault Refusal :=
  run (fpRegArith fun f n => f.arithRegs .subr i 0 true n) s

/-- `FSUBR_m32real` (R553). -/
def execFsubrM32 (p : Pfx) (m : MemOp) (s : State) : Host.Outcome State Fault Refusal :=
  run (fpMemArith p m 4 4 fun vs f n => f.arithMem .subr (asSingle vs) n) s

/-- `FSUBR_m64real` (R553). -/
def execFsubrM64 (p : Pfx) (m : MemOp) (s : State) : Host.Outcome State Fault Refusal :=
  run (fpMemArith p m 8 8 fun vs f n => f.arithMem .subr (asDouble vs) n) s

/-- `FISUBR_m16int` (R555). -/
def execFisubrM16 (p : Pfx) (m : MemOp) (s : State) : Host.Outcome State Fault Refusal :=
  run (fpMemArith p m 2 2 fun vs f n => f.arithMem .subr (asInt 2 vs) n) s

/-- `FISUBR_m32int` (R555). -/
def execFisubrM32 (p : Pfx) (m : MemOp) (s : State) : Host.Outcome State Fault Refusal :=
  run (fpMemArith p m 4 4 fun vs f n => f.arithMem .subr (asInt 4 vs) n) s

/-- `FMUL_ST_ST_i` (R556). -/
def execFmulStSti (_p : Pfx) (i : BitVec 3) (s : State) : Host.Outcome State Fault Refusal :=
  run (fpRegArith fun f n => f.arithRegs .mul 0 i false n) s

/-- `FMUL_ST_i__ST` (R556). -/
def execFmulStiSt (_p : Pfx) (i : BitVec 3) (s : State) : Host.Outcome State Fault Refusal :=
  run (fpRegArith fun f n => f.arithRegs .mul i 0 false n) s

/-- `FMULP_ST_i__ST` (R557). -/
def execFmulpStiSt (_p : Pfx) (i : BitVec 3) (s : State) : Host.Outcome State Fault Refusal :=
  run (fpRegArith fun f n => f.arithRegs .mul i 0 true n) s

/-- `FMUL_m32real` (R556). -/
def execFmulM32 (p : Pfx) (m : MemOp) (s : State) : Host.Outcome State Fault Refusal :=
  run (fpMemArith p m 4 4 fun vs f n => f.arithMem .mul (asSingle vs) n) s

/-- `FMUL_m64real` (R556). -/
def execFmulM64 (p : Pfx) (m : MemOp) (s : State) : Host.Outcome State Fault Refusal :=
  run (fpMemArith p m 8 8 fun vs f n => f.arithMem .mul (asDouble vs) n) s

/-- `FIMUL_m16int` (R558). -/
def execFimulM16 (p : Pfx) (m : MemOp) (s : State) : Host.Outcome State Fault Refusal :=
  run (fpMemArith p m 2 2 fun vs f n => f.arithMem .mul (asInt 2 vs) n) s

/-- `FIMUL_m32int` (R558). -/
def execFimulM32 (p : Pfx) (m : MemOp) (s : State) : Host.Outcome State Fault Refusal :=
  run (fpMemArith p m 4 4 fun vs f n => f.arithMem .mul (asInt 4 vs) n) s

/-- `FCOM_ST_i` (R559). -/
def execFcomSti (_p : Pfx) (i : BitVec 3) (s : State) : Host.Outcome State Fault Refusal :=
  run (fpReg fun f _ => f.compareSt i false .zero) s

/-- `FUCOM_ST_i` (R564). -/
def execFucomSti (_p : Pfx) (i : BitVec 3) (s : State) : Host.Outcome State Fault Refusal :=
  run (fpReg fun f _ => f.compareSt i true .zero) s

/-- `FCOM_m32real` (R559). -/
def execFcomM32 (p : Pfx) (m : MemOp) (s : State) : Host.Outcome State Fault Refusal :=
  run (fpMem p m 4 4 fun vs f _ => f.compare (asSingle vs) false false .zero) s

/-- `FCOM_m64real` (R559). -/
def execFcomM64 (p : Pfx) (m : MemOp) (s : State) : Host.Outcome State Fault Refusal :=
  run (fpMem p m 8 8 fun vs f _ => f.compare (asDouble vs) false false .zero) s

/-- `FICOM_m16int` (R562). -/
def execFicomM16 (p : Pfx) (m : MemOp) (s : State) : Host.Outcome State Fault Refusal :=
  run (fpMem p m 2 2 fun vs f _ => f.compare (asInt 2 vs) false false .zero) s

/-- `FICOM_m32int` (R562). -/
def execFicomM32 (p : Pfx) (m : MemOp) (s : State) : Host.Outcome State Fault Refusal :=
  run (fpMem p m 4 4 fun vs f _ => f.compare (asInt 4 vs) false false .zero) s

/-- `FCOMP_ST_i` (R560). -/
def execFcompSti (_p : Pfx) (i : BitVec 3) (s : State) : Host.Outcome State Fault Refusal :=
  run (fpReg fun f _ => f.compareSt i false .one) s

/-- `FUCOMP_ST_i` (R565). -/
def execFucompSti (_p : Pfx) (i : BitVec 3) (s : State) : Host.Outcome State Fault Refusal :=
  run (fpReg fun f _ => f.compareSt i true .one) s

/-- `FCOMP_m32real` (R560). -/
def execFcompM32 (p : Pfx) (m : MemOp) (s : State) : Host.Outcome State Fault Refusal :=
  run (fpMem p m 4 4 fun vs f _ => f.compare (asSingle vs) false false .one) s

/-- `FCOMP_m64real` (R560). -/
def execFcompM64 (p : Pfx) (m : MemOp) (s : State) : Host.Outcome State Fault Refusal :=
  run (fpMem p m 8 8 fun vs f _ => f.compare (asDouble vs) false false .one) s

/-- `FICOMP_m16int` (R563). -/
def execFicompM16 (p : Pfx) (m : MemOp) (s : State) : Host.Outcome State Fault Refusal :=
  run (fpMem p m 2 2 fun vs f _ => f.compare (asInt 2 vs) false false .one) s

/-- `FICOMP_m32int` (R563). -/
def execFicompM32 (p : Pfx) (m : MemOp) (s : State) : Host.Outcome State Fault Refusal :=
  run (fpMem p m 4 4 fun vs f _ => f.compare (asInt 4 vs) false false .one) s

/-- `FCOMPP` (R561). -/
def execFcompp (_p : Pfx) (s : State) : Host.Outcome State Fault Refusal :=
  run (fpReg fun f _ => f.compareSt 1 false .two) s

/-- `FUCOMPP` (R566). -/
def execFucompp (_p : Pfx) (s : State) : Host.Outcome State Fault Refusal :=
  run (fpReg fun f _ => f.compareSt 1 true .two) s

/-- `FTST` (R567). -/
def execFtst (_p : Pfx) (s : State) : Host.Outcome State Fault Refusal :=
  run (fpReg fun f _ => f.compare (Opnd.ofExt (fpZero false)) false false .zero) s

/-- `FXAM` (R568). -/
def execFxam (_p : Pfx) (s : State) : Host.Outcome State Fault Refusal :=
  run (fpReg fun f n => f.examine n) s

/-- `FABS` (R569). -/
def execFabs (_p : Pfx) (s : State) : Host.Outcome State Fault Refusal :=
  run (fpReg fun f n => f.signOp (fun _ => false) n) s

/-- `FCHS` (R570). -/
def execFchs (_p : Pfx) (s : State) : Host.Outcome State Fault Refusal :=
  run (fpReg fun f n => f.signOp (fun b => !b) n) s

/-- `FRNDINT` (R571). -/
def execFrndint (_p : Pfx) (s : State) : Host.Outcome State Fault Refusal :=
  run (fpReg fun f n => f.frndint n) s

/-- `FSCALE` (R572). -/
def execFscale (_p : Pfx) (s : State) : Host.Outcome State Fault Refusal :=
  run (fpReg fun f n => f.fscale n) s

/-- `FXTRACT` (R573). -/
def execFxtract (_p : Pfx) (s : State) : Host.Outcome State Fault Refusal :=
  run (fpReg fun f n => f.fxtract n) s

/-- `FDECSTP` (R574). -/
def execFdecstp (_p : Pfx) (s : State) : Host.Outcome State Fault Refusal :=
  run (fpReg fun f n => f.decTop n) s

/-- `FNOP` (R575). -/
def execFnop (_p : Pfx) (s : State) : Host.Outcome State Fault Refusal :=
  run (fpReg fun f _ => f) s

/-- `FWAIT` (R576). -/
def execFwait (_p : Pfx) (s : State) : Host.Outcome State Fault Refusal :=
  run (fwaitOp) s

/-- `FLD_ST_i` (R540). -/
def execFldSti (_p : Pfx) (i : BitVec 3) (s : State) : Host.Outcome State Fault Refusal :=
  run (fpReg fun f _ => f.loadSt i) s

/-- `FXCH_ST_i` (R546). -/
def execFxchSti (_p : Pfx) (i : BitVec 3) (s : State) : Host.Outcome State Fault Refusal :=
  run (fpReg fun f _ => f.exchange i) s

/-- `FST_ST_i` (R541). -/
def execFstSti (_p : Pfx) (i : BitVec 3) (s : State) : Host.Outcome State Fault Refusal :=
  run (fpReg fun f _ => f.storeSt i false) s

/-- `FSTP_ST_i` (R542). -/
def execFstpSti (_p : Pfx) (i : BitVec 3) (s : State) : Host.Outcome State Fault Refusal :=
  run (fpReg fun f _ => f.storeSt i true) s

/-- `FLD_m32real` (R540). -/
def execFldM32 (p : Pfx) (m : MemOp) (s : State) : Host.Outcome State Fault Refusal :=
  run (fpMem p m 4 4 fun vs f _ => f.loadReal (asSingle vs)) s

/-- `FLD_m64real` (R540). -/
def execFldM64 (p : Pfx) (m : MemOp) (s : State) : Host.Outcome State Fault Refusal :=
  run (fpMem p m 8 8 fun vs f _ => f.loadReal (asDouble vs)) s

/-- `FLD_m80real` (R540). -/
def execFldM80 (p : Pfx) (m : MemOp) (s : State) : Host.Outcome State Fault Refusal :=
  run (fpMem p m 10 8 fun vs f _ => f.loadExact (ofLe 80 vs)) s

/-- `FILD_m16int` (R543). -/
def execFildM16 (p : Pfx) (m : MemOp) (s : State) : Host.Outcome State Fault Refusal :=
  run (fpMem p m 2 2 fun vs f _ => f.loadExact (asInt 2 vs).v) s

/-- `FILD_m32int` (R543). -/
def execFildM32 (p : Pfx) (m : MemOp) (s : State) : Host.Outcome State Fault Refusal :=
  run (fpMem p m 4 4 fun vs f _ => f.loadExact (asInt 4 vs).v) s

/-- `FILD_m64int` (R543). -/
def execFildM64 (p : Pfx) (m : MemOp) (s : State) : Host.Outcome State Fault Refusal :=
  run (fpMem p m 8 8 fun vs f _ => f.loadExact (asInt 8 vs).v) s

/-- `FST_m32real` (R541). -/
def execFstM32 (p : Pfx) (m : MemOp) (s : State) : Host.Outcome State Fault Refusal :=
  run (fpWrite p m 4 4 (·.storeReal .single false)) s

/-- `FST_m64real` (R541). -/
def execFstM64 (p : Pfx) (m : MemOp) (s : State) : Host.Outcome State Fault Refusal :=
  run (fpWrite p m 8 8 (·.storeReal .double false)) s

/-- `FSTP_m32real` (R542). -/
def execFstpM32 (p : Pfx) (m : MemOp) (s : State) : Host.Outcome State Fault Refusal :=
  run (fpWrite p m 4 4 (·.storeReal .single true)) s

/-- `FSTP_m64real` (R542). -/
def execFstpM64 (p : Pfx) (m : MemOp) (s : State) : Host.Outcome State Fault Refusal :=
  run (fpWrite p m 8 8 (·.storeReal .double true)) s

/-- `FSTP_m80real` (R542). -/
def execFstpM80 (p : Pfx) (m : MemOp) (s : State) : Host.Outcome State Fault Refusal :=
  run (fpWrite p m 10 8 (·.storeExt)) s

/-- `FIST_m16int` (R544). -/
def execFistM16 (p : Pfx) (m : MemOp) (s : State) : Host.Outcome State Fault Refusal :=
  run (fpWrite p m 2 2 (·.storeInt 2 false)) s

/-- `FIST_m32int` (R544). -/
def execFistM32 (p : Pfx) (m : MemOp) (s : State) : Host.Outcome State Fault Refusal :=
  run (fpWrite p m 4 4 (·.storeInt 4 false)) s

/-- `FISTP_m16int` (R545). -/
def execFistpM16 (p : Pfx) (m : MemOp) (s : State) : Host.Outcome State Fault Refusal :=
  run (fpWrite p m 2 2 (·.storeInt 2 true)) s

/-- `FISTP_m32int` (R545). -/
def execFistpM32 (p : Pfx) (m : MemOp) (s : State) : Host.Outcome State Fault Refusal :=
  run (fpWrite p m 4 4 (·.storeInt 4 true)) s

/-- `FISTP_m64int` (R545). -/
def execFistpM64 (p : Pfx) (m : MemOp) (s : State) : Host.Outcome State Fault Refusal :=
  run (fpWrite p m 8 8 (·.storeInt 8 true)) s

end Sys2Proof.Machine
end

