-- ==== Sys2Proof/Machine/IntFlag.lean ====
section
/-! DEFINITION. CLI, STI, PUSHF, POPF, INT n, INT3 and IRET in every mode (R330 to R343). -/
namespace Sys2Proof.Machine

open Sys2Proof

/-! ### CLI and STI -/

/-- What CLI and STI act on (R331 to R333): IF, VIF, or neither. -/
inductive IfRole
  | real | virtual | denied
  deriving DecidableEq, Repr

/-- The mode classification of R332 and R333. -/
def State.ifRole (s : State) : IfRole :=
  if s.realStyle then .real
  else if s.flags.vm then if s.flags.iopl = 3 then .real else if s.vme then .virtual else .denied
  else if s.level ≤ s.flags.iopl.toNat then .real
  else if s.pvi && s.level == 3 then .virtual
  else .denied

/-- CLI (R332). -/
def cliOp : M Unit := do
  let s ← get
  match s.ifRole with
  | .real => update fun s => s.setFlags { s.flags with ifl := false }
  | .virtual => update fun s => s.setFlags { s.flags with vif := false }
  | .denied => gp0

/-- `set_if` (R333): INTR is held off for one instruction when IF was 0. -/
def State.setIf (s : State) : State :=
  let s' := s.setFlags { s.flags with ifl := true }
  if s.flags.ifl then s' else s'.setIntr { s.intr with shadow := .sti }

/-- STI (R333). -/
def stiOp : M Unit := do
  let s ← get
  match s.ifRole with
  | .real => update (·.setIf)
  | .virtual => do
    check (!s.flags.vip) vGP (some 0)
    update fun s => s.setFlags { s.flags with vif := true }
  | .denied => gp0

/-! ### PUSHF and POPF -/

/-- VM set and IOPL below 3: the flags instructions trap or are virtualised (R334, R335). -/
def State.v86Low (s : State) : Bool := s.mode == .v86 && s.flags.iopl != 3

/-- The flags image a Virtual-8086 program sees under VME: VIF in the place of IF, IOPL shown as 3 (R334, R339). -/
def Flags.vmeImage (f : Flags) : Word := { f with ifl := f.vif, iopl := 3 : Flags }.toWord &&& 0xFFFF

/-- PUSHF and PUSHFD (R334). -/
def pushfOp (o : OSz) : M Unit := do
  let s ← get
  if s.v86Low then
    if !s.vme || o == .o32 then gp0 else pushv .o16 s.flags.vmeImage
  else pushv o (s.flags.toWord &&& 0x00FCFFFF)

/-- The flags POPF and POPFD load outside the VME case (R335). -/
def State.popfMask (s : State) (o : OSz) : Word :=
  let free := s.realStyle
  0x00004DD5 ||| (if o = .o32 then 0x00240000 else 0) ||| (if free || s.level == 0 then 0x3000 else 0)
    ||| (if free || decide (s.level ≤ s.flags.iopl.toNat) then 0x200 else 0)

/-- The flags after POPF or POPFD (R335); POPFD clears RF. -/
def State.popFlags (s : State) (o : OSz) (img : Word) : Flags :=
  let f := mergeFlags s.flags img (s.popfMask o)
  match o with
  | .o16 => f
  | .o32 => { f with rf := false }

/-- The 16-bit POPF of a Virtual-8086 program under VME (R335): the image bit for IF goes to VIF. -/
def popfVme : M Unit := do
  let s ← get
  let img ← stackAt 0 2
  check (!((img.getLsbD 9 && s.flags.vip) || img.getLsbD 8)) vGP (some 0)
  moveSp 2
  update fun s => s.setFlags { mergeFlags s.flags img 0x00004DD5 with vif := img.getLsbD 9 }

/-- POPF and POPFD (R335). -/
def popfOp (o : OSz) : M Unit := do
  let s ← get
  if s.v86Low then
    if !s.vme || o == .o32 then gp0 else popfVme
  else do
    let img ← popv o
    update fun s => s.setFlags (s.popFlags o img)

/-! ### INT n -/

/-- The bit of the Interrupt Redirection Bitmap for a vector (R338). A 16-bit TSS has none (R640): GP(0), as for a byte
beyond the limit (DEDUCED from D26, log 52). -/
def irbBit (n : Byte) : M Bool := do
  let s ← get
  check (tss32 s.sys.tr.attr.typ) vGP (some 0)
  let iopb ← sysVal 16 (s.sys.tr.base + 0x66) 2
  let off := iopb.setWidth 32 - 32 + BitVec.ofNat 32 (n.toNat / 8)
  check (decide (off.toNat ≤ s.sys.tr.byteLimit)) vGP (some 0)
  let b ← sysVal 8 (s.sys.tr.base + off) 1
  pure (b.getLsbD (n.toNat % 8))

/-- `v86_int(n)`: INT n through the Virtual-8086 program's own vector table (R339); nothing is stored before the vector can be
read. -/
def v86Int (n : Byte) : M Unit := do
  let s ← get
  let low := s.flags.iopl != 3
  let img := if low then s.flags.vmeImage else s.flags.toWord &&& 0xFFFF
  let w ← openPushes s.bigStack s.gpr.esp
    [item16 (img.extractLsb' 0 16), item16 s.seg.cs.sel, item16 (s.eip.extractLsb' 0 16)]
  let bs ← spanBytes { user := true, write := false } (fun i => BitVec.ofNat 32 (4 * n.toNat + i)) 4 0 none
  commitPushes w
  let vs ← peek bs
  let vec : Word := ofLe 32 vs
  update fun s => s.setFlags
    (if low then { s.flags with vif := false, tf := false } else { s.flags with ifl := false, tf := false })
  update fun t => traceBranch s.seg.cs.sel (jumped
    ((t.putSeg .cs (SegReg.v86 (vec.extractLsb' 16 16))).setEip ((vec.extractLsb' 0 16).setWidth 32)))
  update fun t => t.setScr { t.scr with tf := false }

/-- INT n (R336, R337). -/
def intOp (n : Byte) : M Unit := do
  let s ← get
  if s.realStyle || !s.flags.vm then softInt n
  else if s.vme then do
    let redirect ← irbBit n
    if !redirect then v86Int n else if s.flags.iopl = 3 then softInt n else gp0
  else if s.flags.iopl = 3 then softInt n
  else gp0

/-! ### The instructions -/

/-- `CLI` (R332). -/
def execCli (_p : Pfx) (s : State) : Host.Outcome State Fault Refusal :=
  run (cliOp) s

/-- `STI` (R333). -/
def execSti (_p : Pfx) (s : State) : Host.Outcome State Fault Refusal :=
  run (stiOp) s

/-- `PUSHF_PUSHFD` (R334). -/
def execPushf (p : Pfx) (s : State) : Host.Outcome State Fault Refusal :=
  run (pushfOp p.osz) s

/-- `POPF_POPFD` (R335). -/
def execPopf (p : Pfx) (s : State) : Host.Outcome State Fault Refusal :=
  run (popfOp p.osz) s

/-- `INT3` (R343). -/
def execInt3 (_p : Pfx) (s : State) : Host.Outcome State Fault Refusal :=
  run (softInt vBP) s

/-- `INT_Ib` (R336). -/
def execIntIb (_p : Pfx) (imm : Byte) (s : State) : Host.Outcome State Fault Refusal :=
  run (intOp imm) s

/-- `IRET_IRETD` (R340). -/
def execIret (p : Pfx) (s : State) : Host.Outcome State Fault Refusal :=
  run (iretOp p.osz) s

end Sys2Proof.Machine
end

