-- ==== Sys2Proof/Machine/MulDiv.lean ====
section
/-! DEFINITION. Multiplication and division (R375 to R379). -/
namespace Sys2Proof.Machine

open Sys2Proof

/-- The accumulator pair as a number: AX, DX:AX or EDX:EAX (R375, R378). -/
def State.pairNat (s : State) : Size → Nat
  | .b => (s.view .w .eax).toNat
  | .w => (s.view .w .edx).toNat * 65536 + (s.view .w .eax).toNat
  | .d => (s.reg .edx).toNat * 4294967296 + (s.reg .eax).toNat

/-- Write the accumulator pair: AH:AL, DX:AX or EDX:EAX. -/
def State.putPair (s : State) (sz : Size) (hi lo : BitVec sz.bits) : State :=
  match sz with
  | .b => s.putView .w .eax (hi ++ lo)
  | .w => (s.putView .w .eax lo).putView .w .edx hi
  | .d => (s.putReg .eax lo).putReg .edx hi

/-- The flags of a multiplication: CF and OF alone are defined (R375). -/
def mulFlags (big : Bool) : FlagSet :=
  { cf := .to big, pf := .undef, af := .undef, zf := .undef, sf := .undef, of := .to big }

/-- MUL of the accumulator (R375). -/
def State.mul (s : State) (sz : Size) (y : BitVec sz.bits) : State :=
  let n := (s.view sz .eax).toNat * y.toNat
  let hi := BitVec.ofNat sz.bits (n / 2 ^ sz.bits)
  (s.putPair sz hi (BitVec.ofNat sz.bits n)).putFlags (mulFlags (hi != 0))

/-- One-operand IMUL of the accumulator (R376). -/
def State.imul (s : State) (sz : Size) (y : BitVec sz.bits) : State :=
  let n := (s.view sz .eax).toInt * y.toInt
  let lo := BitVec.ofInt sz.bits n
  (s.putPair sz (BitVec.ofInt sz.bits (n / 2 ^ sz.bits)) lo).putFlags (mulFlags (decide (lo.toInt ≠ n)))

/-- MUL E. -/
def mulRm (p : Pfx) (sz : Size) (rm : RM) : M Unit := do
  let y ← loadRm p sz rm
  update (·.mul sz y)

/-- IMUL E. -/
def imulRm (p : Pfx) (sz : Size) (rm : RM) : M Unit := do
  let y ← loadRm p sz rm
  update (·.imul sz y)

/-- The low half of a signed product into a register (R377). -/
def State.imulTo (s : State) (sz : Size) (g : Reg) (x y : BitVec sz.bits) : State :=
  let n := x.toInt * y.toInt
  let lo := BitVec.ofInt sz.bits n
  (s.putView sz g lo).putFlags (mulFlags (decide (lo.toInt ≠ n)))

/-- IMUL G, E. -/
def imulRegRm (p : Pfx) (g : Reg) (rm : RM) : M Unit := do
  let y ← loadRm p p.osz.size rm
  update fun s => s.imulTo p.osz.size g (s.view p.osz.size g) y

/-- IMUL G, E, immediate. -/
def imulRegRmImm (p : Pfx) (g : Reg) (rm : RM) (imm : BitVec p.osz.size.bits) : M Unit := do
  let x ← loadRm p p.osz.size rm
  update fun s => s.imulTo p.osz.size g x imm

/-- Quotient and remainder into the accumulator pair; the flags are undefined (R378). -/
def State.putDiv (s : State) (sz : Size) (q m : BitVec sz.bits) : State := (s.putPair sz m q).putFlags FlagSet.undefined

/-- DIV E (R378): DE for a zero divisor or a quotient too large. -/
def divRm (p : Pfx) (sz : Size) (rm : RM) : M Unit := do
  let d ← loadRm p sz rm
  let s ← get
  let n := s.pairNat sz
  check (decide (d.toNat ≠ 0 ∧ n / d.toNat < 2 ^ sz.bits)) vDE none
  update (·.putDiv sz (BitVec.ofNat sz.bits (n / d.toNat)) (BitVec.ofNat sz.bits (n % d.toNat)))

/-- A quotient fits the signed range of the operand (R379). -/
def fitsSigned (w : Nat) (q : Int) : Bool := decide (-(2 ^ (w - 1) : Int) ≤ q ∧ q < 2 ^ (w - 1))

/-- The accumulator pair as a signed number (R379). -/
def State.pairInt (s : State) (sz : Size) : Int := (BitVec.ofNat (2 * sz.bits) (s.pairNat sz)).toInt

/-- IDIV E (R379): truncation toward zero; the remainder has the sign of the dividend. -/
def idivRm (p : Pfx) (sz : Size) (rm : RM) : M Unit := do
  let d ← loadRm p sz rm
  let s ← get
  let n := s.pairInt sz
  check (decide (d ≠ 0) && fitsSigned sz.bits (n.tdiv d.toInt)) vDE none
  update (·.putDiv sz (BitVec.ofInt sz.bits (n.tdiv d.toInt)) (BitVec.ofInt sz.bits (n.tmod d.toInt)))

/-! ### The instructions -/

/-- `MUL_Eb` (R375). -/
def execMulEb (p : Pfx) (rm : RM) (s : State) : Host.Outcome State Fault Refusal :=
  run (mulRm p .b rm) s

/-- `MUL_Ev` (R375). -/
def execMulEv (p : Pfx) (rm : RM) (s : State) : Host.Outcome State Fault Refusal :=
  run (mulRm p p.osz.size rm) s

/-- `IMUL_Eb` (R376). -/
def execImulEb (p : Pfx) (rm : RM) (s : State) : Host.Outcome State Fault Refusal :=
  run (imulRm p .b rm) s

/-- `IMUL_Ev` (R376). -/
def execImulEv (p : Pfx) (rm : RM) (s : State) : Host.Outcome State Fault Refusal :=
  run (imulRm p p.osz.size rm) s

/-- `DIV_Eb` (R378). -/
def execDivEb (p : Pfx) (rm : RM) (s : State) : Host.Outcome State Fault Refusal :=
  run (divRm p .b rm) s

/-- `DIV_Ev` (R378). -/
def execDivEv (p : Pfx) (rm : RM) (s : State) : Host.Outcome State Fault Refusal :=
  run (divRm p p.osz.size rm) s

/-- `IDIV_Eb` (R379). -/
def execIdivEb (p : Pfx) (rm : RM) (s : State) : Host.Outcome State Fault Refusal :=
  run (idivRm p .b rm) s

/-- `IDIV_Ev` (R379). -/
def execIdivEv (p : Pfx) (rm : RM) (s : State) : Host.Outcome State Fault Refusal :=
  run (idivRm p p.osz.size rm) s

/-- `IMUL_Gv_Ev` (R377). -/
def execImulGvEv (p : Pfx) (g : Reg) (rm : RM) (s : State) : Host.Outcome State Fault Refusal :=
  run (imulRegRm p g rm) s

/-- `IMUL_Gv_Ev_Iv` (R377). -/
def execImulGvEvIv (p : Pfx) (g : Reg) (rm : RM) (imm : Word) (s : State) : Host.Outcome State Fault Refusal :=
  run (imulRegRmImm p g rm (immV p.osz.size imm)) s

/-- `IMUL_Gv_Ev_Ibs` (R377). -/
def execImulGvEvIbs (p : Pfx) (g : Reg) (rm : RM) (imm : Byte) (s : State) : Host.Outcome State Fault Refusal :=
  run (imulRegRmImm p g rm (immS p.osz.size imm)) s

end Sys2Proof.Machine
end

