-- ==== Sys2Proof/Machine/System.lean ====
section
/-! DEFINITION. System instructions (R480 to R503). -/
namespace Sys2Proof.Machine

open Sys2Proof

/-- The check of R480: CPL 0, else GP(0). Real mode and SMM pass. -/
def privileged : M Unit := do
  let s ← get
  check (s.level == 0) vGP (some 0)

/-- Every status flag undefined, as a move to or from a control or debug register leaves them (R490). -/
def State.looseFlags (s : State) : State := s.putFlags FlagSet.undefined

/-! ### Halt, caches, TLB -/

/-- HLT (R481): the Halt special cycle, then the Halt state. -/
def hltOp : M Unit := do
  privileged
  update fun s => (special 0xFB 0 s).setClock .halt

/-- INVD (R482). -/
def invdOp : M Unit := do
  privileged
  update fun s => serialize (special 0xFD 0 (invalidateCaches s))

/-- WBINVD (R483). -/
def wbinvdOp : M Unit := do
  privileged
  update fun s => special 0xFD 0 (special 0xF7 0 (flushCaches (note .serial s)))

/-- INVLPG (R484): no access and no fault from the address, which A20M# masks like every linear address (R67, R69). -/
def invlpgOp (p : Pfx) (m : MemOp) : M Unit := do
  privileged
  update fun s => serialize (flushPage (s.linear (segFor p m) (effAddr m s.gpr)) s)

/-! ### Input and output -/

/-- One bit of the I/O Permission Bitmap word for each byte of the access (R486). -/
def ioBits (w : Half) (first : Nat) : Nat → Bool
  | 0 => true
  | n + 1 => !w.getLsbD (first + n) && ioBits w first n

/-- The bitmap decides whether a port may be used (R486). -/
def ioBitmap (port : Half) (n : Nat) : M Unit := do
  let s ← get
  check (!s.sys.tr.attr.s && (s.sys.tr.attr.typ == 9 || s.sys.tr.attr.typ == 11)) vGP (some 0)
  let iopb ← sysVal 16 (s.sys.tr.base + 0x66) 2
  let off := iopb.toNat + port.toNat / 8
  check (decide (off + 1 ≤ s.sys.tr.byteLimit)) vGP (some 0)
  let w ← sysVal 16 (s.sys.tr.base + BitVec.ofNat 32 off) 2
  check (ioBits w (port.toNat % 8) n) vGP (some 0)

/-- `io_check` (R486). -/
def ioCheck (port : Half) (n : Nat) : M Unit := do
  let s ← get
  if s.realStyle || (!s.flags.vm && decide (s.level ≤ s.flags.iopl.toNat)) then pure () else ioBitmap port n

/-- A range past port FFFFh is not described (U11). -/
def ioRange (port : Half) (n : Nat) : M Unit := if port.toNat + n ≤ 65536 then pure () else refuse .ioPastEnd

/-- Breakpoint `i` watches I/O accesses (R488). -/
def State.watchesIo (s : State) (i : Nat) : Bool := s.dbgExt && s.dr.enabled i && s.dr.rw i == 2

/-- `io_breakpoint` (R488): note which breakpoints the ports match. -/
def noteIo (port : Half) (n : Nat) : M Unit := do
  let s ← get
  let ports := (List.range n).map fun k => port.setWidth 32 + BitVec.ofNat 32 k
  doWhen (s.watchesIo 0) (noteOne 0 ports)
  doWhen (s.watchesIo 1) (noteOne 1 ports)
  doWhen (s.watchesIo 2) (noteOne 2 ports)
  doWhen (s.watchesIo 3) (noteOne 3 ports)

/-- How many bytes of an access the first doubleword holds; the rest is in the next one (R103). -/
def ioFirst (port : Half) (n : Nat) : Nat := min n (4 - port.toNat % 4)

/-- The lower and the higher part of an access that crosses a doubleword: port, bytes and value of each (R192). -/
def ioParts (port : Half) (n : Nat) (v : Word) : List (Half × Nat × Word) :=
  let k := ioFirst port n
  let low := (port, k, v &&& BitVec.ofNat 32 (2 ^ (8 * k) - 1))
  if k = n then [low] else [low, (port + BitVec.ofNat 16 k, n - k, v >>> (8 * k))]

/-- The cycles of IN in bus order, lower part first (R103, R192). -/
def ioReads (port : Half) (n : Nat) (v : Word) (a : Bool × Bool) : List BusEvent :=
  (ioParts port n v).map fun x => .ioRead x.1 x.2.1 x.2.2 a.1 a.2

/-- The cycles of OUT in bus order, higher part first (R103, R192). -/
def ioWrites (port : Half) (n : Nat) (v : Word) (a : Bool × Bool) : List BusEvent :=
  (ioParts port n v).reverse.map fun x => .ioWrite x.1 x.2.1 x.2.2 a.1 a.2

/-- Remember the access for an SMI# at this boundary (R714), and put its cycles on the bus. -/
def ioDone (port : Half) (input : Bool) (before : State) (es : List BusEvent) (s : State) : State :=
  let t : IoTrap := { port := port, input := input, eip := s.scr.start, esi := before.gpr.esi, ecx := before.gpr.ecx,
                      edi := before.gpr.edi }
  es.foldl (fun s e => drive e s) (s.setSmm { s.smm with lastIo := some t })

/-- IN (R485): the value comes from outside the machine and is free (log 12). -/
def inOp (sz : Size) (port : Half) : M Unit := do
  ioCheck port sz.bytes
  ioRange port sz.bytes
  let s ← get
  let v ← drawBits sz.bits
  update fun t => (ioDone port true s (ioReads port sz.bytes (v.setWidth 32) s.untranslated) t).putView sz .eax v
  noteIo port sz.bytes

/-- OUT (R487): serializing, before its own write too (R147). -/
def outOp (sz : Size) (port : Half) : M Unit := do
  ioCheck port sz.bytes
  ioRange port sz.bytes
  let s ← get
  update fun t =>
    ioDone port false s (ioWrites port sz.bytes ((s.view sz .eax).setWidth 32) s.untranslated) (serialize t)
  noteIo port sz.bytes

/-- IN through DX. -/
def inDx (sz : Size) : M Unit := do
  let s ← get
  inOp sz (s.view .w .edx)

/-- OUT through DX. -/
def outDx (sz : Size) : M Unit := do
  let s ← get
  outOp sz (s.view .w .edx)

/-! ### Control registers -/

/-- MOV from a control register (R491, R492, R494). -/
def readCr (r : Reg) (f : CtrlRegs → Word) : M Unit := do
  privileged
  update fun s => (s.putReg r (f s.cr)).looseFlags

/-- PG without PE, or NW without CD (R34, R490). -/
def badCr0 (v : Word) : Bool := (v.getLsbD 31 && !v.getLsbD 0) || (v.getLsbD 29 && !v.getLsbD 30)

/-- The stored value of a write to CR0: reserved bits ignored, ET reads 1 (R490, D29). -/
def cr0Value (v : Word) : Word := (v &&& 0xE005003F) ||| 0x00000010

/-- Write CR0; when PG changes the TLB and the linear tags go (R490). -/
def State.writeCr0 (s : State) (v : Word) : State :=
  let s' := s.putCr0 (cr0Value v)
  if s.pg = s'.pg then s' else dropLinearTags (flushTlbAll s')

/-- MOV CR0, r32 (R490). -/
def movToCr0 (r : Reg) : M Unit := do
  privileged
  let s ← get
  check (!badCr0 (s.reg r)) vGP (some 0)
  update fun s => serialize (s.writeCr0 (s.reg r)).looseFlags

/-- MOV CR2, r32 (R492). -/
def movToCr2 (r : Reg) : M Unit := do
  privileged
  update fun s => serialize (s.putCr2 (s.reg r)).looseFlags

/-- MOV CR3, r32 (R493). -/
def movToCr3 (r : Reg) : M Unit := do
  privileged
  update fun s => serialize (dropLinearTags (flushTlb (s.putCr3 (s.reg r &&& cr3Mask)))).looseFlags

/-! ### Debug registers -/

/-- DR4 and DR5 name DR6 and DR7 (R43). -/
def drIndex (n : BitVec 3) : BitVec 3 := if n = 4 then 6 else if n = 5 then 7 else n

/-- General detect (R675): DR7.GD turns a move to or from a debug register into a debug fault. -/
def generalDetect : Exc :=
  { vec := vDB, err := none, cr2 := none, dr6 := 0x00002000, clearGd := true, setRf := true, committed := false }

/-- The checks of a debug-register move (R496): privilege, DR4 and DR5, general detect. -/
def drChecks (n : BitVec 3) : M Unit := do
  privileged
  let s ← get
  check (!((n == 4 || n == 5) && s.dbgExt)) vUD none
  doWhen (s.dr.dr7.getLsbD 13) (throw (.exc generalDetect))

/-- Read a debug register (R497). -/
def DebugRegs.get (d : DebugRegs) (n : BitVec 3) : Word :=
  match (drIndex n).toNat with
  | 0 => d.dr0
  | 1 => d.dr1
  | 2 => d.dr2
  | 3 => d.dr3
  | 6 => d.dr6
  | _ => d.dr7

/-- DR6 with its fixed bits (R41, R496). -/
def dr6Value (v : Word) : Word := (v ||| 0xFFFF0FF0) &&& 0xFFFFEFFF

/-- DR7 with its fixed bits (R42, R496). -/
def dr7Value (v : Word) : Word := (v ||| 0x00000400) &&& 0xFFFF27FF

/-- Write a debug register (R496). -/
def DebugRegs.put (d : DebugRegs) (n : BitVec 3) (v : Word) : DebugRegs :=
  match (drIndex n).toNat with
  | 0 => { d with dr0 := v }
  | 1 => { d with dr1 := v }
  | 2 => { d with dr2 := v }
  | 3 => { d with dr3 := v }
  | 6 => { d with dr6 := dr6Value v }
  | _ => { d with dr7 := dr7Value v }

/-- MOV DRn, r32 (R496). -/
def movToDr (n : BitVec 3) (r : Reg) : M Unit := do
  drChecks n
  update fun s => serialize (s.setDr (s.dr.put n (s.reg r))).looseFlags

/-- MOV r32, DRn (R497). -/
def movFromDr (r : Reg) (n : BitVec 3) : M Unit := do
  drChecks n
  update fun s => (s.putReg r (s.dr.get n)).looseFlags

/-! ### Descriptor tables -/

/-- The six bytes of an LGDT or LIDT operand: a 16-bit operand size keeps 24 bits of the base (R500). -/
def tableOf (o : OSz) (vs : List Byte) : TableReg :=
  let base : Word := ofLe 32 (vs.drop 2)
  { limit := ofLe 16 (vs.take 2), base := match o with | .o16 => base &&& 0x00FFFFFF | .o32 => base }

/-- Read an LGDT or LIDT operand. -/
def loadTable (p : Pfx) (m : MemOp) : M TableReg := do
  privileged
  let s ← get
  let vs ← loadBytes (segFor p m) (effAddr m s.gpr) 6 4
  pure (tableOf p.osz vs)

/-- LGDT (R500). -/
def lgdtOp (p : Pfx) (m : MemOp) : M Unit := do
  let t ← loadTable p m
  update fun s => serialize (s.setSys { s.sys with gdtr := t })

/-- LIDT (R501). -/
def lidtOp (p : Pfx) (m : MemOp) : M Unit := do
  let t ← loadTable p m
  update fun s => serialize (s.setSys { s.sys with idtr := t })

/-- LLDT and LTR exist with PE = 1 and VM = 0 alone, in SMM too, at CPL 0 (R502, R503). -/
def protOnly : M Unit := do
  let s ← get
  check (s.mode == .prot) vUD none
  privileged

/-- LTR (R502), which serializes, before its own write too (R147, R151). -/
def ltrOp (p : Pfx) (rm : RM) : M Unit := do
  protOnly
  let sel ← loadRm p .w rm
  check (!nullSel sel && !sel.getLsbD 2) vGP (some (selErr sel))
  let d ← readDesc sel vGP (selErr sel)
  check (!d.attr.s && (d.sysType == 1 || d.sysType == 9)) vGP (some (selErr sel))
  check d.attr.p vNP (some (selErr sel))
  let bs ← openType d
  update (note .serial)
  lockedUpdate bs (· ||| 2)
  update fun s => dropMarks (s.setSys { s.sys with tr := d.reg sel (d.attr.typ ||| 2) })

/-- LLDT (R503). -/
def lldtOp (p : Pfx) (rm : RM) : M Unit := do
  protOnly
  let sel ← loadRm p .w rm
  if nullSel sel then update fun s => serialize (s.setSys { s.sys with ldtr := SegReg.null sel })
  else do
    check (!sel.getLsbD 2) vGP (some (selErr sel))
    let d ← readDesc sel vGP (selErr sel)
    check (!d.attr.s && d.sysType == 2) vGP (some (selErr sel))
    check d.attr.p vNP (some (selErr sel))
    update fun s => serialize (s.setSys { s.sys with ldtr := d.reg sel d.attr.typ })

/-! ### The instructions -/

/-- `HLT` (R481). -/
def execHlt (_p : Pfx) (s : State) : Host.Outcome State Fault Refusal :=
  run (hltOp) s

/-- `INVD` (R482). -/
def execInvd (_p : Pfx) (s : State) : Host.Outcome State Fault Refusal :=
  run (invdOp) s

/-- `WBINVD` (R483). -/
def execWbinvd (_p : Pfx) (s : State) : Host.Outcome State Fault Refusal :=
  run (wbinvdOp) s

/-- `INVLPG_M` (R484). -/
def execInvlpgM (p : Pfx) (m : MemOp) (s : State) : Host.Outcome State Fault Refusal :=
  run (invlpgOp p m) s

/-- `IN_AL_Ib` (R485). -/
def execInAlIb (_p : Pfx) (imm : Byte) (s : State) : Host.Outcome State Fault Refusal :=
  run (inOp .b (imm.setWidth 16)) s

/-- `IN_eAX_Ib` (R485). -/
def execInEaxIb (p : Pfx) (imm : Byte) (s : State) : Host.Outcome State Fault Refusal :=
  run (inOp p.osz.size (imm.setWidth 16)) s

/-- `IN_AL_DX` (R485). -/
def execInAlDx (_p : Pfx) (s : State) : Host.Outcome State Fault Refusal :=
  run (inDx .b) s

/-- `IN_eAX_DX` (R485). -/
def execInEaxDx (p : Pfx) (s : State) : Host.Outcome State Fault Refusal :=
  run (inDx p.osz.size) s

/-- `OUT_Ib_AL` (R487). -/
def execOutIbAl (_p : Pfx) (imm : Byte) (s : State) : Host.Outcome State Fault Refusal :=
  run (outOp .b (imm.setWidth 16)) s

/-- `OUT_Ib_eAX` (R487). -/
def execOutIbEax (p : Pfx) (imm : Byte) (s : State) : Host.Outcome State Fault Refusal :=
  run (outOp p.osz.size (imm.setWidth 16)) s

/-- `OUT_DX_AL` (R487). -/
def execOutDxAl (_p : Pfx) (s : State) : Host.Outcome State Fault Refusal :=
  run (outDx .b) s

/-- `OUT_DX_eAX` (R487). -/
def execOutDxEax (p : Pfx) (s : State) : Host.Outcome State Fault Refusal :=
  run (outDx p.osz.size) s

/-- `MOV_r32_CR0` (R491). -/
def execMovRCr0 (_p : Pfx) (r : Reg) (s : State) : Host.Outcome State Fault Refusal :=
  run (readCr r (·.cr0)) s

/-- `MOV_r32_CR2` (R492). -/
def execMovRCr2 (_p : Pfx) (r : Reg) (s : State) : Host.Outcome State Fault Refusal :=
  run (readCr r (·.cr2)) s

/-- `MOV_r32_CR3` (R494). -/
def execMovRCr3 (_p : Pfx) (r : Reg) (s : State) : Host.Outcome State Fault Refusal :=
  run (readCr r (·.cr3)) s

/-- `MOV_CR0_r32` (R490). -/
def execMovCr0R (_p : Pfx) (r : Reg) (s : State) : Host.Outcome State Fault Refusal :=
  run (movToCr0 r) s

/-- `MOV_CR2_r32` (R492). -/
def execMovCr2R (_p : Pfx) (r : Reg) (s : State) : Host.Outcome State Fault Refusal :=
  run (movToCr2 r) s

/-- `MOV_CR3_r32` (R493). -/
def execMovCr3R (_p : Pfx) (r : Reg) (s : State) : Host.Outcome State Fault Refusal :=
  run (movToCr3 r) s

/-- `MOV_r32_DRn` (R497). -/
def execMovRDr (_p : Pfx) (r : Reg) (n : BitVec 3) (s : State) : Host.Outcome State Fault Refusal :=
  run (movFromDr r n) s

/-- `MOV_DRn_r32` (R496). -/
def execMovDrR (_p : Pfx) (n : BitVec 3) (r : Reg) (s : State) : Host.Outcome State Fault Refusal :=
  run (movToDr n r) s

/-- `LGDT_Ms` (R500). -/
def execLgdtMs (p : Pfx) (m : MemOp) (s : State) : Host.Outcome State Fault Refusal :=
  run (lgdtOp p m) s

/-- `LIDT_Ms` (R501). -/
def execLidtMs (p : Pfx) (m : MemOp) (s : State) : Host.Outcome State Fault Refusal :=
  run (lidtOp p m) s

/-- `LTR_Ew` (R502). -/
def execLtrEw (p : Pfx) (rm : RM) (s : State) : Host.Outcome State Fault Refusal :=
  run (ltrOp p rm) s

/-- `LLDT_Ew` (R503). -/
def execLldtEw (p : Pfx) (rm : RM) (s : State) : Host.Outcome State Fault Refusal :=
  run (lldtOp p rm) s

end Sys2Proof.Machine
end

