-- ==== Sys2Proof/Machine/NewInstr.lean ====
section
/-! DEFINITION. The instructions the source defines itself, RSM apart (R300 to R313), and the array access register (R840 to R848). -/
namespace Sys2Proof.Machine

open Sys2Proof

/-! ### CPUID and CMPXCHG8B -/

/-- Function 1 of CPUID, EAX: family 5, model, stepping (R300). -/
def cpuidSignature (p : Platform) : Word := 0x00000500 ||| (p.model.setWidth 32 <<< 4) ||| p.stepping.setWidth 32

/-- The four registers CPUID writes. -/
def State.putCpuid (s : State) (a b c d : Word) : State :=
  (((s.putReg .eax a).putReg .ebx b).putReg .ecx c).putReg .edx d

/-- CPUID (R300): the registers are undefined for a function above 1 (D23, U22). -/
def State.cpuid (s : State) : State :=
  if s.gpr.eax = 0 then s.putCpuid 0x00000001 0x68747541 0x444D4163 0x69746E65
  else if s.gpr.eax = 1 then s.putCpuid (cpuidSignature s.plat) 0 0 0x000003BF
  else
    (s.putCpuid (Config.freeBits 32 s.draws) (Config.freeBits 32 (s.draws + 1)) (Config.freeBits 32 (s.draws + 2))
      (Config.freeBits 32 (s.draws + 3))).setDraws (s.draws + 4)

/-- CPUID, which serializes (R151). -/
def cpuidOp : M Unit := update fun s => serialize s.cpuid

/-- CMPXCHG8B once its eight bytes are known: equal writes ECX:EBX, unequal writes the old value back and loads
EDX:EAX (R303). -/
def cmpxchg8b (old : Qword) (s : State) : Qword × State :=
  if old = s.gpr.edx ++ s.gpr.eax then (s.gpr.ecx ++ s.gpr.ebx, s.setFlags { s.flags with zf := true })
  else
    (old, ((s.putReg .edx (old.extractLsb' 32 32)).putReg .eax (old.extractLsb' 0 32)).setFlags
      { s.flags with zf := false })

/-- CMPXCHG8B (R303): the destination must be writable whatever the comparison gives; it moves as two 4-byte halves (R109). -/
def cmpxchg8bOp (p : Pfx) (m : MemOp) : M Unit := do
  let s ← get
  let bs ← openRmw (segFor p m) (effAddr m s.gpr) 8 8
  doWhen p.lock (update (evictLines bs))
  let lo ← peekAs p.lock (bs.take 4)
  let hi ← peekAs p.lock (bs.drop 4)
  let t ← get
  let r := cmpxchg8b (ofLe 64 (lo ++ hi)) t
  set r.2
  pokeAs p.lock (bs.take 4) (toLe 4 (r.1.extractLsb' 0 32))
  pokeAs p.lock (bs.drop 4) (toLe 4 (r.1.extractLsb' 32 32))

/-! ### CR4 -/

/-- The reserved bits of CR4: 31 to 8 and 5 (R37, D6). -/
def badCr4 (v : Word) : Bool := v &&& 0xFFFFFF20 != 0

/-- MOV CR4, r32 (R304): no flag changes; the TLB stays (D13). -/
def movToCr4 (r : Reg) : M Unit := do
  privileged
  let s ← get
  check (!badCr4 (s.reg r)) vGP (some 0)
  update fun s => serialize (s.putCr4 (s.reg r))

/-- MOV r32, CR4 (R305). -/
def movFromCr4 (r : Reg) : M Unit := do
  privileged
  update fun s => s.putReg r s.cr.cr4

/-! ### Time stamp counter -/

/-- EDX:EAX as a 64-bit value. -/
def State.edxEax (s : State) : Qword := s.gpr.edx ++ s.gpr.eax

/-- Write EDX:EAX. -/
def State.putEdxEax (s : State) (v : Qword) : State :=
  (s.putReg .edx (v.extractLsb' 32 32)).putReg .eax (v.extractLsb' 0 32)

/-- RDTSC (R306). -/
def rdtscOp : M Unit := do
  let s ← get
  check (!(s.tsd && s.level != 0)) vGP (some 0)
  update fun s => s.putEdxEax s.msr.tsc

/-! ### The array access register -/

/-- The way an array pointer names (R844). -/
def aarWay (s : State) (ptr : Word) : Nat :=
  (if s.plat.aarWay28 then ptr.extractLsb' 28 2 else ptr.extractLsb' 30 2).toNat

/-- The data-cache line an array pointer names, if it is valid (R844). -/
def aarLine (s : State) (ptr : Word) : Option DLine :=
  s.cache.dlines.find? fun l => l.line % 64 == (ptr.extractLsb' 13 6).toNat && l.way == aarWay s ptr

/-- The physical address of the doubleword a pointer names in a line (R844). -/
def aarAddr (l : DLine) (ptr : Word) : Nat := l.line * 32 + 4 * (ptr.extractLsb' 10 3).toNat

/-- `AarRead` (R841, D41): the doubleword of a valid data-cache line; every other array is a free value. DESIGN CHOICE (log 19):
HWCR.DDC, HWCR.DIC and CR0.CD do not affect it; R848 says that this is not stated. -/
def aarRead (ptr : Word) : M Word := do
  let s ← get
  match if ptr.extractLsb' 0 8 = 0xE0 then aarLine s ptr else none with
  | some l => pure (ofLe 32 (s.mem.reads (aarAddr l ptr) 4))
  | none => drawBits 32

/-- A free MESI state. -/
def freeMesi (n : Nat) : Mesi :=
  match (Config.freeBits 2 n).toNat with
  | 0 => .modified
  | 1 => .exclusive
  | _ => .shared

/-- A free linear tag. -/
def freeTag (n : Nat) : Option LineTag :=
  if Config.freeBit n then
    some { la := (Config.freeBits 27 n).toNat, us := Config.freeBit (n + 1), wr := Config.freeBit (n + 2),
           pcd := Config.freeBit (n + 3), pwt := Config.freeBit (n + 4) }
  else none

/-- One data-cache location in an undefined state: it may hold a line with any tag, state and data (R842, D41). -/
def scrambleSlot (s : State) (slot : Nat) : State :=
  let n := s.draws
  let line := (Config.freeBits 21 n).toNat * 64 + slot % 64
  let l : DLine := { line := line, way := slot / 64, ltag := freeTag (n + 4), mesi := freeMesi (n + 1),
                     back := some (s.mem.reads (line * 32) 32) }
  let s' := s.setDraws (n + 9)
  if Config.freeBit (n + 2) then
    (s'.setMem (s.mem.writes (line * 32) (toLe 32 (Config.freeBits 256 (n + 3))))).setCache
      { s.cache with dlines := l :: s.cache.dlines }
  else s'

/-- The whole data cache in an undefined state (R842, D41). -/
def scrambleData (s : State) : State :=
  let s' := (s.setMem (s.cache.dlines.foldl restoreLine s.mem)).setCache
    { s.cache with dlines := [], foreign := true }
  (List.range 256).foldl scrambleSlot s'

/-- One instruction-cache location in an undefined state. -/
def scrambleISlot (s : State) (slot : Nat) : State :=
  let n := s.draws
  let l : ILine := { line := (Config.freeBits 20 n).toNat * 128 + slot % 128, way := slot / 128, ltag := freeTag (n + 4),
                     bp := Config.freeBits 2 (n + 1), code := some (toLe 32 (Config.freeBits 256 (n + 2))) }
  let s' := s.setDraws (n + 9)
  if Config.freeBit (n + 3) then s'.setCache { s.cache with ilines := l :: s.cache.ilines } else s'

/-- The whole instruction cache in an undefined state (R842, D41). -/
def scrambleCode (s : State) : State :=
  (List.range 512).foldl scrambleISlot (s.setCache { s.cache with ilines := [], foreign := true })

/-- The branch-prediction bits in an undefined state, which changes timing only (R842, R845). -/
def scrambleBp (s : State) : State :=
  let is := s.cache.ilines.mapIdx fun i l => { l with bp := Config.freeBits 2 (s.draws + i) }
  (s.setCache { s.cache with ilines := is }).setDraws (s.draws + s.cache.ilines.length)

/-- One TLB entry in an undefined state: any page of its set, any frame and attributes (R9, R842). -/
def scrambleEntry (big : Bool) (s : State) (slot : Nat) : State :=
  let n := s.draws
  let b (k : Nat) : Bool := Config.freeBit (n + 2 + k)
  let e : TlbEntry :=
    if big then
      { way := slot, page := (Config.freeBits 10 n).toNat, big := true,
        base := (Config.freeBits 10 (n + 1)).toNat * 4194304,
        us := b 0, wr := b 1, d := b 2, pcd := b 3, pwt := b 4, g := b 5 }
    else
      { way := slot / 32, page := (Config.freeBits 15 n).toNat * 32 + slot % 32, big := false,
        base := (Config.freeBits 20 (n + 1)).toNat * 4096,
        us := b 0, wr := b 1, d := b 2, pcd := b 3, pwt := b 4, g := b 5 }
  (s.setDraws (n + 8)).setCache { s.cache with tlb := e :: s.cache.tlb }

/-- The TLB of one page size in an undefined state (R842, D41): 128 or 4 entries. -/
def scrambleTlb (big : Bool) (s : State) : State :=
  (List.range (if big then 4 else 128)).foldl (scrambleEntry big)
    (s.setCache { s.cache with tlb := s.cache.tlb.filter fun e => e.big != big })

/-- `AarWrite` (R842, R843): a write to any array of a structure leaves that structure undefined (D41), the
branch-prediction bits alone for theirs (R845); other identifiers are U17. -/
def aarWrite (ptr : Word) : M Unit :=
  match (ptr.extractLsb' 0 8).toNat with
  | 0xE0 => update scrambleData
  | 0xE1 => update scrambleData
  | 0xEC => update scrambleData
  | 0xE4 => update scrambleCode
  | 0xE5 => update scrambleCode
  | 0xED => update scrambleCode
  | 0xE6 => update scrambleCode
  | 0xE7 => update scrambleBp
  | 0xE8 => update (scrambleTlb false)
  | 0xE9 => update (scrambleTlb false)
  | 0xEA => update (scrambleTlb true)
  | 0xEB => update (scrambleTlb true)
  | _ => refuse .arrayWrite

/-! ### Model-specific registers -/

/-- The register RDMSR reads, by its number (R307). -/
def readMsr : M Unit := do
  let s ← get
  match s.gpr.ecx.toNat with
  | 0x00 => update fun s => s.putEdxEax ((s.msr.mcar.extractLsb' 0 32).setWidth 64)
  | 0x01 => update fun s =>
    (s.putEdxEax ((s.msr.mctr.extractLsb' 0 5).setWidth 64)).setMsr { s.msr with mctr := s.msr.mctr &&& ~~~1 }
  | 0x10 => update fun s => s.putEdxEax s.msr.tsc
  | 0x82 => do
    let v ← aarRead s.gpr.edx
    update (·.putReg .eax v)
  | 0x83 => update fun s => s.putEdxEax ((s.msr.hwcr.extractLsb' 0 8).setWidth 64)
  | _ => gp0

/-- RDMSR (R307). -/
def rdmsrOp : M Unit := do
  privileged
  readMsr
  update serialize

/-- The register WRMSR writes: reserved bits and upper halves are ignored (R308, D7). -/
def writeMsr : M Unit := do
  let s ← get
  let v := s.gpr.eax
  match s.gpr.ecx.toNat with
  | 0x00 => update fun s => s.setMsr { s.msr with mcar := v.setWidth 64 }
  | 0x01 => update fun s => s.setMsr { s.msr with mctr := (v &&& 0x1F).setWidth 64 }
  | 0x10 => update fun s => s.setMsr { s.msr with tsc := s.edxEax }
  | 0x82 => aarWrite s.gpr.edx
  | 0x83 => update fun s => s.setMsr { s.msr with hwcr := (v &&& 0xEF).setWidth 64 }
  | _ => gp0

/-- WRMSR (R308). -/
def wrmsrOp : M Unit := do
  privileged
  writeMsr
  update serialize

/-! ### The instructions -/

/-- `CPUID` (R300). -/
def execCpuid (_p : Pfx) (s : State) : Host.Outcome State Fault Refusal :=
  run (cpuidOp) s

/-- `CMPXCHG8B_Mq` (R303). -/
def execCmpxchg8bMq (p : Pfx) (m : MemOp) (s : State) : Host.Outcome State Fault Refusal :=
  run (cmpxchg8bOp p m) s

/-- `MOV_CR4_r32` (R304). -/
def execMovCr4R (_p : Pfx) (r : Reg) (s : State) : Host.Outcome State Fault Refusal :=
  run (movToCr4 r) s

/-- `MOV_r32_CR4` (R305). -/
def execMovRCr4 (_p : Pfx) (r : Reg) (s : State) : Host.Outcome State Fault Refusal :=
  run (movFromCr4 r) s

/-- `RDTSC` (R306). -/
def execRdtsc (_p : Pfx) (s : State) : Host.Outcome State Fault Refusal :=
  run (rdtscOp) s

/-- `RDMSR` (R307). -/
def execRdmsr (_p : Pfx) (s : State) : Host.Outcome State Fault Refusal :=
  run (rdmsrOp) s

/-- `WRMSR` (R308). -/
def execWrmsr (_p : Pfx) (s : State) : Host.Outcome State Fault Refusal :=
  run (wrmsrOp) s

/-- `none___guaranteed_invalid_opcode__raises_UD` (R313). -/
def execIllegal0FFF (_p : Pfx) (s : State) : Host.Outcome State Fault Refusal :=
  run (ud) s

end Sys2Proof.Machine
end

