-- ==== Sys2Proof/Machine/Shift.lean ====
section
/-! DEFINITION. Shifts and rotates (R381 to R388). -/
namespace Sys2Proof.Machine

open Sys2Proof

/-- A shift or rotate by a count that is not zero. -/
abbrev ShiftOp := (w : Nat) → BitVec w → Nat → BitVec w × FlagSet

/-- OF of a shift: defined for a count of 1 alone (R382 to R388). -/
def ofOne (n : Nat) (b : Bool) : FlagVal := if n = 1 then .to b else .undef

/-- ROL (R382). -/
def rolOp : ShiftOp := fun w x n =>
  let k := n % w
  let r := x <<< k ||| x >>> (w - k)
  (r, { FlagSet.none with cf := .to (r.getLsbD 0), of := ofOne n (r.msb ^^ r.getLsbD 0) })

/-- ROR (R383). -/
def rorOp : ShiftOp := fun w x n =>
  let k := n % w
  let r := x >>> k ||| x <<< (w - k)
  (r, { FlagSet.none with cf := .to r.msb, of := ofOne n (r.msb ^^ r.getLsbD (w - 2)) })

/-- SHL (R384). -/
def shlOp : ShiftOp := fun w x n =>
  let r := x <<< n
  (r, szp r (if n ≤ w then .to (x.getLsbD (w - n)) else .undef) .undef (ofOne n (r.msb ^^ x.getLsbD (w - n))))

/-- SHR (R385). -/
def shrOp : ShiftOp := fun w x n =>
  let r := x >>> n
  (r, szp r (if n ≤ w then .to (x.getLsbD (n - 1)) else .undef) .undef (ofOne n x.msb))

/-- SAR (R386). -/
def sarOp : ShiftOp := fun w x n =>
  let r := x.sshiftRight n
  (r, szp r (.to (if n < w then x.getLsbD (n - 1) else x.msb)) .undef (ofOne n false))

/-- A count uses its low five bits (R381). -/
def count5 (b : Byte) : Nat := b.toNat % 32

/-- A shift of a destination. -/
def shiftModify (op : ShiftOp) (sz : Size) (n : Nat) : Modify sz := fun x s =>
  ((op sz.bits x n).1, s.putFlags (op sz.bits x n).2)

/-- A memory operand that is only read. -/
def readOnlyMem (p : Pfx) (sz : Size) (m : MemOp) : M Unit := do
  let s ← get
  let bs ← openRead (segFor p m) (effAddr m s.gpr) sz.bytes sz.bytes
  let _ ← peek bs

/-- A memory operand that is read and written back unchanged. -/
def rewriteMem (p : Pfx) (sz : Size) (m : MemOp) : M Unit := do
  let s ← get
  let bs ← openRmw (segFor p m) (effAddr m s.gpr) sz.bytes sz.bytes
  let vs ← peek bs
  poke bs vs

/-- A count of zero changes nothing; a memory destination is read, and may or may not be written back unchanged
(R381): a free choice. -/
def zeroShift (p : Pfx) (sz : Size) : RM → M Unit
  | .reg _ => pure ()
  | .mem m => fun s =>
    let t := s.setDraws (s.draws + 1)
    match readOnlyMem p sz m t, rewriteMem p sz m t with
    | .ok _ a, .ok _ b => .ok () (if Config.freeBit s.draws then b else a)
    | a, b => if Config.freeBit s.draws then b else a

/-- A shift or rotate of E by a count (R381). -/
def shiftRm (op : ShiftOp) (p : Pfx) (sz : Size) (rm : RM) (count : Byte) : M Unit :=
  if count5 count = 0 then zeroShift p sz rm else modifyRm p sz rm (shiftModify op sz (count5 count))

/-- A shift or rotate of E by CL. -/
def shiftRmCl (op : ShiftOp) (p : Pfx) (sz : Size) (rm : RM) : M Unit := do
  let s ← get
  shiftRm op p sz rm (s.view .b .ecx)

/-- A double shift: destination, other operand, count. -/
abbrev DShiftOp := (w : Nat) → BitVec w → BitVec w → Nat → BitVec w × FlagSet

/-- SHLD for counts up to the width (R387). -/
def shldOp : DShiftOp := fun w x g n =>
  let r := x <<< n ||| g >>> (w - n)
  (r, szp r (.to (x.getLsbD (w - n))) .undef (ofOne n (r.msb ^^ x.msb)))

/-- SHRD for counts up to the width (R388). -/
def shrdOp : DShiftOp := fun w x g n =>
  let r := x >>> n ||| g <<< (w - n)
  (r, szp r (.to (x.getLsbD (n - 1))) .undef (ofOne n (r.msb ^^ x.msb)))

/-- A double shift of a destination: above the width the result and the flags are undefined (R387, R388). -/
def dshiftModify (op : DShiftOp) (sz : Size) (y : BitVec sz.bits) (n : Nat) : Modify sz := fun x s =>
  if sz.bits < n then
    (Config.freeBits sz.bits s.draws, (s.setDraws (s.draws + 1)).putFlags FlagSet.undefined)
  else ((op sz.bits x y n).1, s.putFlags (op sz.bits x y n).2)

/-- SHLD and SHRD (R387, R388). -/
def dshiftRm (op : DShiftOp) (p : Pfx) (rm : RM) (g : Reg) (count : Byte) : M Unit := do
  let s ← get
  if count5 count = 0 then zeroShift p p.osz.size rm
  else modifyRm p p.osz.size rm (dshiftModify op p.osz.size (s.view p.osz.size g) (count5 count))

/-- SHLD and SHRD by CL. -/
def dshiftRmCl (op : DShiftOp) (p : Pfx) (rm : RM) (g : Reg) : M Unit := do
  let s ← get
  dshiftRm op p rm g (s.view .b .ecx)

/-! ### The instructions -/

/-- `ROL_Eb_Ib` (R382). -/
def execRolEbIb (p : Pfx) (rm : RM) (imm : Byte) (s : State) : Host.Outcome State Fault Refusal :=
  run (shiftRm rolOp p .b rm imm) s

/-- `ROL_Eb_1` (R382). -/
def execRolEb1 (p : Pfx) (rm : RM) (s : State) : Host.Outcome State Fault Refusal :=
  run (shiftRm rolOp p .b rm 1) s

/-- `ROL_Eb_CL` (R382). -/
def execRolEbCl (p : Pfx) (rm : RM) (s : State) : Host.Outcome State Fault Refusal :=
  run (shiftRmCl rolOp p .b rm) s

/-- `ROL_Ev_Ib` (R382). -/
def execRolEvIb (p : Pfx) (rm : RM) (imm : Byte) (s : State) : Host.Outcome State Fault Refusal :=
  run (shiftRm rolOp p p.osz.size rm imm) s

/-- `ROL_Ev_1` (R382). -/
def execRolEv1 (p : Pfx) (rm : RM) (s : State) : Host.Outcome State Fault Refusal :=
  run (shiftRm rolOp p p.osz.size rm 1) s

/-- `ROL_Ev_CL` (R382). -/
def execRolEvCl (p : Pfx) (rm : RM) (s : State) : Host.Outcome State Fault Refusal :=
  run (shiftRmCl rolOp p p.osz.size rm) s

/-- `ROR_Eb_Ib` (R383). -/
def execRorEbIb (p : Pfx) (rm : RM) (imm : Byte) (s : State) : Host.Outcome State Fault Refusal :=
  run (shiftRm rorOp p .b rm imm) s

/-- `ROR_Eb_1` (R383). -/
def execRorEb1 (p : Pfx) (rm : RM) (s : State) : Host.Outcome State Fault Refusal :=
  run (shiftRm rorOp p .b rm 1) s

/-- `ROR_Eb_CL` (R383). -/
def execRorEbCl (p : Pfx) (rm : RM) (s : State) : Host.Outcome State Fault Refusal :=
  run (shiftRmCl rorOp p .b rm) s

/-- `ROR_Ev_Ib` (R383). -/
def execRorEvIb (p : Pfx) (rm : RM) (imm : Byte) (s : State) : Host.Outcome State Fault Refusal :=
  run (shiftRm rorOp p p.osz.size rm imm) s

/-- `ROR_Ev_1` (R383). -/
def execRorEv1 (p : Pfx) (rm : RM) (s : State) : Host.Outcome State Fault Refusal :=
  run (shiftRm rorOp p p.osz.size rm 1) s

/-- `ROR_Ev_CL` (R383). -/
def execRorEvCl (p : Pfx) (rm : RM) (s : State) : Host.Outcome State Fault Refusal :=
  run (shiftRmCl rorOp p p.osz.size rm) s

/-- `SHL_Eb_Ib` (R384). -/
def execShlEbIb (p : Pfx) (rm : RM) (imm : Byte) (s : State) : Host.Outcome State Fault Refusal :=
  run (shiftRm shlOp p .b rm imm) s

/-- `SHL_Eb_1` (R384). -/
def execShlEb1 (p : Pfx) (rm : RM) (s : State) : Host.Outcome State Fault Refusal :=
  run (shiftRm shlOp p .b rm 1) s

/-- `SHL_Eb_CL` (R384). -/
def execShlEbCl (p : Pfx) (rm : RM) (s : State) : Host.Outcome State Fault Refusal :=
  run (shiftRmCl shlOp p .b rm) s

/-- `SHL_Ev_Ib` (R384). -/
def execShlEvIb (p : Pfx) (rm : RM) (imm : Byte) (s : State) : Host.Outcome State Fault Refusal :=
  run (shiftRm shlOp p p.osz.size rm imm) s

/-- `SHL_Ev_1` (R384). -/
def execShlEv1 (p : Pfx) (rm : RM) (s : State) : Host.Outcome State Fault Refusal :=
  run (shiftRm shlOp p p.osz.size rm 1) s

/-- `SHL_Ev_CL` (R384). -/
def execShlEvCl (p : Pfx) (rm : RM) (s : State) : Host.Outcome State Fault Refusal :=
  run (shiftRmCl shlOp p p.osz.size rm) s

/-- `SHR_Eb_Ib` (R385). -/
def execShrEbIb (p : Pfx) (rm : RM) (imm : Byte) (s : State) : Host.Outcome State Fault Refusal :=
  run (shiftRm shrOp p .b rm imm) s

/-- `SHR_Eb_1` (R385). -/
def execShrEb1 (p : Pfx) (rm : RM) (s : State) : Host.Outcome State Fault Refusal :=
  run (shiftRm shrOp p .b rm 1) s

/-- `SHR_Eb_CL` (R385). -/
def execShrEbCl (p : Pfx) (rm : RM) (s : State) : Host.Outcome State Fault Refusal :=
  run (shiftRmCl shrOp p .b rm) s

/-- `SHR_Ev_Ib` (R385). -/
def execShrEvIb (p : Pfx) (rm : RM) (imm : Byte) (s : State) : Host.Outcome State Fault Refusal :=
  run (shiftRm shrOp p p.osz.size rm imm) s

/-- `SHR_Ev_1` (R385). -/
def execShrEv1 (p : Pfx) (rm : RM) (s : State) : Host.Outcome State Fault Refusal :=
  run (shiftRm shrOp p p.osz.size rm 1) s

/-- `SHR_Ev_CL` (R385). -/
def execShrEvCl (p : Pfx) (rm : RM) (s : State) : Host.Outcome State Fault Refusal :=
  run (shiftRmCl shrOp p p.osz.size rm) s

/-- `SAR_Eb_Ib` (R386). -/
def execSarEbIb (p : Pfx) (rm : RM) (imm : Byte) (s : State) : Host.Outcome State Fault Refusal :=
  run (shiftRm sarOp p .b rm imm) s

/-- `SAR_Eb_1` (R386). -/
def execSarEb1 (p : Pfx) (rm : RM) (s : State) : Host.Outcome State Fault Refusal :=
  run (shiftRm sarOp p .b rm 1) s

/-- `SAR_Eb_CL` (R386). -/
def execSarEbCl (p : Pfx) (rm : RM) (s : State) : Host.Outcome State Fault Refusal :=
  run (shiftRmCl sarOp p .b rm) s

/-- `SAR_Ev_Ib` (R386). -/
def execSarEvIb (p : Pfx) (rm : RM) (imm : Byte) (s : State) : Host.Outcome State Fault Refusal :=
  run (shiftRm sarOp p p.osz.size rm imm) s

/-- `SAR_Ev_1` (R386). -/
def execSarEv1 (p : Pfx) (rm : RM) (s : State) : Host.Outcome State Fault Refusal :=
  run (shiftRm sarOp p p.osz.size rm 1) s

/-- `SAR_Ev_CL` (R386). -/
def execSarEvCl (p : Pfx) (rm : RM) (s : State) : Host.Outcome State Fault Refusal :=
  run (shiftRmCl sarOp p p.osz.size rm) s

/-- `SHLD_Ev_Gv_Ib` (R387). -/
def execShldEvGvIb (p : Pfx) (rm : RM) (g : Reg) (imm : Byte) (s : State) : Host.Outcome State Fault Refusal :=
  run (dshiftRm shldOp p rm g imm) s

/-- `SHLD_Ev_Gv_CL` (R387). -/
def execShldEvGvCl (p : Pfx) (rm : RM) (g : Reg) (s : State) : Host.Outcome State Fault Refusal :=
  run (dshiftRmCl shldOp p rm g) s

/-- `SHRD_Ev_Gv_Ib` (R388). -/
def execShrdEvGvIb (p : Pfx) (rm : RM) (g : Reg) (imm : Byte) (s : State) : Host.Outcome State Fault Refusal :=
  run (dshiftRm shrdOp p rm g imm) s

/-- `SHRD_Ev_Gv_CL` (R388). -/
def execShrdEvGvCl (p : Pfx) (rm : RM) (g : Reg) (s : State) : Host.Outcome State Fault Refusal :=
  run (dshiftRmCl shrdOp p rm g) s

end Sys2Proof.Machine
end

