-- ==== Sys2Proof/Machine/Smm.lean ====
section
/-! DEFINITION. System Management Mode: the save area, the entry and RSM (R700 to R722). -/
namespace Sys2Proof.Machine

open Sys2Proof

/-! ### The state-save area -/

/-- The 512 bytes at `smm_base` + FE00h: physical, with the PCD and PWT of an access that paging does not translate (R130,
R702, R712). -/
def saveArea (s : State) (base : Word) : List Byt :=
  (List.range 512).map fun i =>
    let a := base + 0x0000FE00 + BitVec.ofNat 32 i
    { la := a, pa := a.toNat, us := true, wr := true, pcd := s.untranslated.1, pwt := s.untranslated.2 }

/-- A field of the area by its offset in Table 6-2 (R712). -/
def saved (bs : List Byte) (off n : Nat) : Word := field bs (off - 0xFE00) n

/-- Put a field into the area. -/
def putSaved (bs : List Byte) (off n : Nat) (v : Word) : List Byte :=
  bs.take (off - 0xFE00) ++ toLe n v ++ bs.drop (off - 0xFE00 + n)

/-- The slots of a segment register, LDTR or TR: selector, attributes, base, limit (R712). -/
def segSlots (r : SegReg) (sel attr base limit : Nat) : List (Nat × Nat × Word) :=
  [(sel, 4, r.sel.setWidth 32), (attr, 4, r.attr.toBits.setWidth 32), (base, 4, r.base), (limit, 4, r.limit.setWidth 32)]

/-- The read/write register slots (R712). -/
def writableSlots (s : State) : List (Nat × Nat × Word) :=
  [(0xFFF4, 4, s.flags.toWord), (0xFFF0, 4, s.eip), (0xFFEC, 4, s.gpr.edi), (0xFFE8, 4, s.gpr.esi),
   (0xFFE4, 4, s.gpr.ebp), (0xFFE0, 4, s.gpr.esp), (0xFFDC, 4, s.gpr.ebx), (0xFFD8, 4, s.gpr.edx),
   (0xFFD4, 4, s.gpr.ecx), (0xFFD0, 4, s.gpr.eax), (0xFF00, 2, 0), (0xFEF8, 4, s.smm.base)]

/-- The read-only slots (R712, R716). -/
def readOnlySlots (s : State) : List (Nat × Nat × Word) :=
  [(0xFFFC, 4, s.cr.cr0), (0xFFF8, 4, s.cr.cr3), (0xFFCC, 4, s.dr.dr6), (0xFFC8, 4, s.dr.dr7),
   (0xFF90, 4, s.sys.idtr.base), (0xFF8C, 4, s.sys.idtr.limit.setWidth 32), (0xFF88, 4, s.sys.gdtr.base),
   (0xFF84, 4, s.sys.gdtr.limit.setWidth 32), (0xFF14, 4, s.cr.cr2), (0xFF10, 4, s.cr.cr4), (0xFEFC, 4, 0x00030000)]
  ++ segSlots s.sys.tr 0xFFC4 0xFF80 0xFF7C 0xFF78 ++ segSlots s.sys.ldtr 0xFFC0 0xFF74 0xFF70 0xFF6C
  ++ segSlots s.seg.gs 0xFFBC 0xFF68 0xFF64 0xFF60 ++ segSlots s.seg.fs 0xFFB8 0xFF5C 0xFF58 0xFF54
  ++ segSlots s.seg.ds 0xFFB4 0xFF50 0xFF4C 0xFF48 ++ segSlots s.seg.ss 0xFFB0 0xFF44 0xFF40 0xFF3C
  ++ segSlots s.seg.cs 0xFFAC 0xFF38 0xFF34 0xFF30 ++ segSlots s.seg.es 0xFFA8 0xFF2C 0xFF28 0xFF24

/-- The I/O trap dword (R714). -/
def ioDword (t : IoTrap) : Word := (t.port.setWidth 32 <<< 16) ||| 2 ||| bitAt t.input 0

/-- The I/O slots; without a trapped I/O instruction only the valid bit is defined (R714). -/
def ioSlots (bs : List Byte) : Option IoTrap → List (Nat × Nat × Word)
  | some t => [(0xFFA4, 4, ioDword t), (0xFF9C, 4, t.eip), (0xFF0C, 4, t.esi), (0xFF08, 4, t.ecx), (0xFF04, 4, t.edi)]
  | none => [(0xFFA4, 4, putBit (saved bs 0xFFA4 4) 1 false)]

/-- Put one slot into the area. -/
def putSlot (bs : List Byte) (f : Nat × Nat × Word) : List Byte := putSaved bs f.1 f.2.1 f.2.2

/-- The area as the entry writes it: what the spec leaves undefined or reserved is free (U9, R713, R714). -/
def saveImage (s : State) : List Byte :=
  let free := toLe 512 (Config.freeBits 4096 s.draws)
  let halt := putBit (saved free 0xFF02 2) 0 (s.clock == .halt)
  (readOnlySlots s ++ writableSlots s ++ ioSlots free s.smm.lastIo ++ [(0xFF02, 2, halt)]).foldl putSlot free

/-! ### Entry -/

/-- A 4-Gbyte data segment at base 0, and the code segment at the SMM base (R703, D35). -/
def SegReg.smmData : SegReg := { sel := 0, base := 0, limit := 0xFFFFF, attr := { SegAttr.data16 with g := true } }

/-- CS after SMM entry (R703). -/
def SegReg.smmCode (base : Word) : SegReg :=
  { sel := base.extractLsb' 4 16, base := base, limit := 0xFFFFF, attr := { SegAttr.code16 with g := true } }

/-- The register values of R703; DR6 is undefined. -/
def smmRegisters (s : State) : State :=
  let s := s.setSeg { es := .smmData, cs := .smmCode s.smm.base, ss := .smmData, ds := .smmData, fs := .smmData,
                      gs := .smmData }
  let s := (s.setFlags Flags.reset).setEip 0x00008000
  let s := s.setDr { s.dr with dr6 := dr6Value (Config.freeBits 32 s.draws), dr7 := 0x00000400 }
  let s := (s.setDraws (s.draws + 1)).setCpl 0
  let s' := (s.putCr0 (s.cr.cr0 &&& 0x7FFFFFF2)).putCr4 0
  if s.pg then dropLinearTags (flushTlbAll s') else s'

/-- Fill the save area downwards from its top, a doubleword at a time (R702). -/
def fillDown (area : List (Byt × Byte)) (s : State) : State :=
  (List.range 128).reverse.foldl (fun s k => storeBytes 4 false false none ((area.drop (4 * k)).take 4) s) s

/-- `SmmEnter` (R702): SMIACT# is asserted before the save area is written; a debug trap still due waits for RSM (R722). -/
def smmEnter (s : State) : State :=
  let img := saveImage s
  let area := saveArea s s.smm.base
  let t := swapMaps (s.setDraws (s.draws + 1))
  let t := fillDown (area.zip img) t
  let t := t.setIntr { t.intr with smi := false, nmiMasked := true, shadow := .none, dbTrap := false, nmiFirst := false,
                                   handling := none }
  let t := t.setSmm { t.smm with active := true, lastIo := none, dbPostponed := s.intr.dbTrap, image := some img,
                                 fromShutdown := s.clock == .shutdown }
  serialize (smmRegisters (t.setClock .normal))

/-! ### RSM -/

/-- The conditions under which RSM enters Shutdown (R721). -/
def rsmShutdown (bs : List Byte) : Bool :=
  (saved bs 0xFEF8 4).extractLsb' 0 15 != 0 || badCr4 (saved bs 0xFF10 4) || badCr0 (saved bs 0xFFFC 4)

/-- The handler left the read-only slots as the entry wrote them (R713, U14). -/
def readOnlyKept (s : State) (bs : List Byte) : Bool :=
  match s.smm.image with
  | none => true
  | some img =>
    let fields := (readOnlySlots s).map (fun f => (f.1, f.2.1))
      ++ [(0xFFA4, 4), (0xFF9C, 4), (0xFF0C, 4), (0xFF08, 4), (0xFF04, 4)]
    fields.all fun f => saved bs f.1 f.2 == saved img f.1 f.2

/-- The restart slots hold what R708 and R709 allow (U14). -/
def restartOk (bs : List Byte) : Bool :=
  let io := saved bs 0xFF00 2
  io == 0 || (io == 0xFF && (saved bs 0xFFA4 4).getLsbD 1 && !(saved bs 0xFF02 2).getLsbD 0)

/-- A segment register from its slots (R720). -/
def restoreSeg (bs : List Byte) (sel attr base limit : Nat) : SegReg :=
  { sel := (saved bs sel 4).setWidth 16, base := saved bs base 4, limit := (saved bs limit 4).setWidth 20,
    attr := SegAttr.ofBits ((saved bs attr 4).setWidth 12) }

/-- The segment registers from the area (R720). -/
def restoreSegs (bs : List Byte) : SegFile :=
  { es := restoreSeg bs 0xFFA8 0xFF2C 0xFF28 0xFF24, cs := restoreSeg bs 0xFFAC 0xFF38 0xFF34 0xFF30,
    ss := restoreSeg bs 0xFFB0 0xFF44 0xFF40 0xFF3C, ds := restoreSeg bs 0xFFB4 0xFF50 0xFF4C 0xFF48,
    fs := restoreSeg bs 0xFFB8 0xFF5C 0xFF58 0xFF54, gs := restoreSeg bs 0xFFBC 0xFF68 0xFF64 0xFF60 }

/-- The system-table registers from the area (R720). -/
def restoreSys (bs : List Byte) : SysRegs :=
  { gdtr := { base := saved bs 0xFF88 4, limit := (saved bs 0xFF84 4).setWidth 16 },
    idtr := { base := saved bs 0xFF90 4, limit := (saved bs 0xFF8C 4).setWidth 16 },
    ldtr := restoreSeg bs 0xFFC0 0xFF74 0xFF70 0xFF6C, tr := restoreSeg bs 0xFFC4 0xFF80 0xFF7C 0xFF78 }

/-- The general registers from the area (R720). -/
def restoreGpr (bs : List Byte) : Gpr :=
  { eax := saved bs 0xFFD0 4, ecx := saved bs 0xFFD4 4, edx := saved bs 0xFFD8 4, ebx := saved bs 0xFFDC 4,
    esp := saved bs 0xFFE0 4, ebp := saved bs 0xFFE4 4, esi := saved bs 0xFFE8 4, edi := saved bs 0xFFEC 4 }

/-- CPL as RSM computes it from the restored state (R720). -/
def restoredCpl (cr0 : Word) (f : Flags) (ss : SegReg) : BitVec 2 :=
  if cr0.getLsbD 0 then (if f.vm then 3 else ss.attr.dpl) else 0

/-- The registers RSM loads (R720); the TLB is invalidated. -/
def rsmRegisters (bs : List Byte) (s : State) : State :=
  let f := Flags.ofWord (saved bs 0xFFF4 4)
  let seg := restoreSegs bs
  let s := s.setCr { cr0 := saved bs 0xFFFC 4, cr2 := saved bs 0xFF14 4, cr3 := saved bs 0xFFF8 4, cr4 := saved bs 0xFF10 4 }
  let s := (s.setFlags f).setEip (saved bs 0xFFF0 4)
  let s := ((s.setGpr (restoreGpr bs)).setSeg seg).setSys (restoreSys bs)
  let s := s.setDr { s.dr with dr6 := dr6Value (saved bs 0xFFCC 4), dr7 := dr7Value (saved bs 0xFFC8 4) }
  dropLinearTags (flushTlbAll (s.setCpl (restoredCpl s.cr.cr0 f seg.ss)))

/-- What RSM does last: halt again (R708), repeat the I/O instruction (R709), deliver a postponed debug trap (R722),
or fall back into Shutdown (N44). -/
def rsmResume (bs : List Byte) (old : State) (s : State) : State :=
  if (saved bs 0xFF02 2).getLsbD 0 then (special 0xFB 0 s).setClock .halt
  else if saved bs 0xFF00 2 = 0xFF then
    (s.setEip (saved bs 0xFF9C 4)).setGpr
      { s.gpr with esi := saved bs 0xFF0C 4, ecx := saved bs 0xFF08 4, edi := saved bs 0xFF04 4 }
  else if old.smm.dbPostponed then s.setIntr { s.intr with dbTrap := true }
  else if old.smm.fromShutdown && old.smm.image == some bs then enterShutdown s
  else s

/-- `RsmRestore` once the area is read and checked (R720). DESIGN CHOICE (log 52): R671 lists no RSM among the instructions that
leave RF, R720 loads all of EFLAGS; the RF of the save area stays. -/
def rsmRestore (bs : List Byte) (s : State) : State :=
  let t := rsmRegisters bs (swapMaps s)
  let t := t.setSmm { active := false, base := saved bs 0xFEF8 4, lastIo := none, dbPostponed := false, image := none,
                      fromShutdown := false }
  let t := t.setIntr { t.intr with nmiMasked := false }
  let t := t.setScr { t.scr with rfLoaded := true }
  serialize (openTrace s.seg.cs.sel (rsmResume bs s t))

/-- RSM (R312, R720, R721): invalid outside SMM, then the CPL check, which only a handler in Protected mode can fail (C17). -/
def rsmOp : M Unit := do
  let s ← get
  if !s.smm.active then ud
  else do
    privileged
    let bs ← peek (saveArea s s.smm.base)
    if rsmShutdown bs then update fun t => enterShutdown (serialize t)
    else if !(readOnlyKept s bs && restartOk bs) then refuse .saveArea
    else update (rsmRestore bs)

/-! ### The instructions -/

/-- `RSM` (R312). -/
def execRsm (_p : Pfx) (s : State) : Host.Outcome State Fault Refusal :=
  run (rsmOp) s

end Sys2Proof.Machine
end

