-- ==== Sys2Proof/Machine/Dispatch.lean ====
section
/-! DEFINITION. What each instruction does: one direct call of its meaning. -/
namespace Sys2Proof.Machine

open Sys2Proof

/-- Run one instruction on a state (R15). -/
def exec (i : Instr) (s : State) : Host.Outcome State Fault Refusal :=
  match i with
  | .fabs p => Sys2Proof.Machine.execFabs p s
  | .fchs p => Sys2Proof.Machine.execFchs p s
  | .fcompp p => Sys2Proof.Machine.execFcompp p s
  | .fdecstp p => Sys2Proof.Machine.execFdecstp p s
  | .fnop p => Sys2Proof.Machine.execFnop p s
  | .frndint p => Sys2Proof.Machine.execFrndint p s
  | .fscale p => Sys2Proof.Machine.execFscale p s
  | .ftst p => Sys2Proof.Machine.execFtst p s
  | .fucompp p => Sys2Proof.Machine.execFucompp p s
  | .fxam p => Sys2Proof.Machine.execFxam p s
  | .fxtract p => Sys2Proof.Machine.execFxtract p s
  | .faddStSti p sti => Sys2Proof.Machine.execFaddStSti p sti s
  | .faddStiSt p sti => Sys2Proof.Machine.execFaddStiSt p sti s
  | .faddpStiSt p sti => Sys2Proof.Machine.execFaddpStiSt p sti s
  | .fcomSti p sti => Sys2Proof.Machine.execFcomSti p sti s
  | .fcompSti p sti => Sys2Proof.Machine.execFcompSti p sti s
  | .fldSti p sti => Sys2Proof.Machine.execFldSti p sti s
  | .fmulStSti p sti => Sys2Proof.Machine.execFmulStSti p sti s
  | .fmulStiSt p sti => Sys2Proof.Machine.execFmulStiSt p sti s
  | .fmulpStiSt p sti => Sys2Proof.Machine.execFmulpStiSt p sti s
  | .fstSti p sti => Sys2Proof.Machine.execFstSti p sti s
  | .fstpSti p sti => Sys2Proof.Machine.execFstpSti p sti s
  | .fsubStSti p sti => Sys2Proof.Machine.execFsubStSti p sti s
  | .fsubStiSt p sti => Sys2Proof.Machine.execFsubStiSt p sti s
  | .fsubpStiSt p sti => Sys2Proof.Machine.execFsubpStiSt p sti s
  | .fsubrStSti p sti => Sys2Proof.Machine.execFsubrStSti p sti s
  | .fsubrStiSt p sti => Sys2Proof.Machine.execFsubrStiSt p sti s
  | .fsubrpStiSt p sti => Sys2Proof.Machine.execFsubrpStiSt p sti s
  | .fucomSti p sti => Sys2Proof.Machine.execFucomSti p sti s
  | .fucompSti p sti => Sys2Proof.Machine.execFucompSti p sti s
  | .fxchSti p sti => Sys2Proof.Machine.execFxchSti p sti s
  | .addEbIb p rm imm => Sys2Proof.Machine.execAddEbIb p rm imm s
  | .addEvIv p rm imm => Sys2Proof.Machine.execAddEvIv p rm imm s
  | .addEvIbs p rm imm => Sys2Proof.Machine.execAddEvIbs p rm imm s
  | .orEbIb p rm imm => Sys2Proof.Machine.execOrEbIb p rm imm s
  | .orEvIv p rm imm => Sys2Proof.Machine.execOrEvIv p rm imm s
  | .orEvIbs p rm imm => Sys2Proof.Machine.execOrEvIbs p rm imm s
  | .adcEbIb p rm imm => Sys2Proof.Machine.execAdcEbIb p rm imm s
  | .adcEvIv p rm imm => Sys2Proof.Machine.execAdcEvIv p rm imm s
  | .adcEvIbs p rm imm => Sys2Proof.Machine.execAdcEvIbs p rm imm s
  | .sbbEbIb p rm imm => Sys2Proof.Machine.execSbbEbIb p rm imm s
  | .sbbEvIv p rm imm => Sys2Proof.Machine.execSbbEvIv p rm imm s
  | .sbbEvIbs p rm imm => Sys2Proof.Machine.execSbbEvIbs p rm imm s
  | .andEbIb p rm imm => Sys2Proof.Machine.execAndEbIb p rm imm s
  | .andEvIv p rm imm => Sys2Proof.Machine.execAndEvIv p rm imm s
  | .andEvIbs p rm imm => Sys2Proof.Machine.execAndEvIbs p rm imm s
  | .subEbIb p rm imm => Sys2Proof.Machine.execSubEbIb p rm imm s
  | .subEvIv p rm imm => Sys2Proof.Machine.execSubEvIv p rm imm s
  | .subEvIbs p rm imm => Sys2Proof.Machine.execSubEvIbs p rm imm s
  | .xorEbIb p rm imm => Sys2Proof.Machine.execXorEbIb p rm imm s
  | .xorEvIv p rm imm => Sys2Proof.Machine.execXorEvIv p rm imm s
  | .xorEvIbs p rm imm => Sys2Proof.Machine.execXorEvIbs p rm imm s
  | .cmpEbIb p rm imm => Sys2Proof.Machine.execCmpEbIb p rm imm s
  | .cmpEvIv p rm imm => Sys2Proof.Machine.execCmpEvIv p rm imm s
  | .cmpEvIbs p rm imm => Sys2Proof.Machine.execCmpEvIbs p rm imm s
  | .popEv p rm => Sys2Proof.Machine.execPopEv p rm s
  | .rolEbIb p rm imm => Sys2Proof.Machine.execRolEbIb p rm imm s
  | .rolEvIb p rm imm => Sys2Proof.Machine.execRolEvIb p rm imm s
  | .rolEb1 p rm => Sys2Proof.Machine.execRolEb1 p rm s
  | .rolEv1 p rm => Sys2Proof.Machine.execRolEv1 p rm s
  | .rolEbCl p rm => Sys2Proof.Machine.execRolEbCl p rm s
  | .rolEvCl p rm => Sys2Proof.Machine.execRolEvCl p rm s
  | .rorEbIb p rm imm => Sys2Proof.Machine.execRorEbIb p rm imm s
  | .rorEvIb p rm imm => Sys2Proof.Machine.execRorEvIb p rm imm s
  | .rorEb1 p rm => Sys2Proof.Machine.execRorEb1 p rm s
  | .rorEv1 p rm => Sys2Proof.Machine.execRorEv1 p rm s
  | .rorEbCl p rm => Sys2Proof.Machine.execRorEbCl p rm s
  | .rorEvCl p rm => Sys2Proof.Machine.execRorEvCl p rm s
  | .shlEbIb p rm imm => Sys2Proof.Machine.execShlEbIb p rm imm s
  | .shlEvIb p rm imm => Sys2Proof.Machine.execShlEvIb p rm imm s
  | .shlEb1 p rm => Sys2Proof.Machine.execShlEb1 p rm s
  | .shlEv1 p rm => Sys2Proof.Machine.execShlEv1 p rm s
  | .shlEbCl p rm => Sys2Proof.Machine.execShlEbCl p rm s
  | .shlEvCl p rm => Sys2Proof.Machine.execShlEvCl p rm s
  | .shrEbIb p rm imm => Sys2Proof.Machine.execShrEbIb p rm imm s
  | .shrEvIb p rm imm => Sys2Proof.Machine.execShrEvIb p rm imm s
  | .shrEb1 p rm => Sys2Proof.Machine.execShrEb1 p rm s
  | .shrEv1 p rm => Sys2Proof.Machine.execShrEv1 p rm s
  | .shrEbCl p rm => Sys2Proof.Machine.execShrEbCl p rm s
  | .shrEvCl p rm => Sys2Proof.Machine.execShrEvCl p rm s
  | .sarEbIb p rm imm => Sys2Proof.Machine.execSarEbIb p rm imm s
  | .sarEvIb p rm imm => Sys2Proof.Machine.execSarEvIb p rm imm s
  | .sarEb1 p rm => Sys2Proof.Machine.execSarEb1 p rm s
  | .sarEv1 p rm => Sys2Proof.Machine.execSarEv1 p rm s
  | .sarEbCl p rm => Sys2Proof.Machine.execSarEbCl p rm s
  | .sarEvCl p rm => Sys2Proof.Machine.execSarEvCl p rm s
  | .movEbIb p rm imm => Sys2Proof.Machine.execMovEbIb p rm imm s
  | .movEvIv p rm imm => Sys2Proof.Machine.execMovEvIv p rm imm s
  | .testEbIb p rm imm => Sys2Proof.Machine.execTestEbIb p rm imm s
  | .notEb p rm => Sys2Proof.Machine.execNotEb p rm s
  | .negEb p rm => Sys2Proof.Machine.execNegEb p rm s
  | .mulEb p rm => Sys2Proof.Machine.execMulEb p rm s
  | .imulEb p rm => Sys2Proof.Machine.execImulEb p rm s
  | .divEb p rm => Sys2Proof.Machine.execDivEb p rm s
  | .idivEb p rm => Sys2Proof.Machine.execIdivEb p rm s
  | .testEvIv p rm imm => Sys2Proof.Machine.execTestEvIv p rm imm s
  | .notEv p rm => Sys2Proof.Machine.execNotEv p rm s
  | .negEv p rm => Sys2Proof.Machine.execNegEv p rm s
  | .mulEv p rm => Sys2Proof.Machine.execMulEv p rm s
  | .imulEv p rm => Sys2Proof.Machine.execImulEv p rm s
  | .divEv p rm => Sys2Proof.Machine.execDivEv p rm s
  | .idivEv p rm => Sys2Proof.Machine.execIdivEv p rm s
  | .incEb p rm => Sys2Proof.Machine.execIncEb p rm s
  | .decEb p rm => Sys2Proof.Machine.execDecEb p rm s
  | .incEv p rm => Sys2Proof.Machine.execIncEv p rm s
  | .decEv p rm => Sys2Proof.Machine.execDecEv p rm s
  | .callEv p rm => Sys2Proof.Machine.execCallEv p rm s
  | .jmpEv p rm => Sys2Proof.Machine.execJmpEv p rm s
  | .jmpMp p m => Sys2Proof.Machine.execJmpMp p m s
  | .pushEv p rm => Sys2Proof.Machine.execPushEv p rm s
  | .lldtEw p rm => Sys2Proof.Machine.execLldtEw p rm s
  | .ltrEw p rm => Sys2Proof.Machine.execLtrEw p rm s
  | .lgdtMs p m => Sys2Proof.Machine.execLgdtMs p m s
  | .lidtMs p m => Sys2Proof.Machine.execLidtMs p m s
  | .invlpgM p m => Sys2Proof.Machine.execInvlpgM p m s
  | .movRCr0 p r => Sys2Proof.Machine.execMovRCr0 p r s
  | .movRCr2 p r => Sys2Proof.Machine.execMovRCr2 p r s
  | .movRCr3 p r => Sys2Proof.Machine.execMovRCr3 p r s
  | .movRCr4 p r => Sys2Proof.Machine.execMovRCr4 p r s
  | .movCr0R p r => Sys2Proof.Machine.execMovCr0R p r s
  | .movCr2R p r => Sys2Proof.Machine.execMovCr2R p r s
  | .movCr3R p r => Sys2Proof.Machine.execMovCr3R p r s
  | .movCr4R p r => Sys2Proof.Machine.execMovCr4R p r s
  | .btEvIb p rm imm => Sys2Proof.Machine.execBtEvIb p rm imm s
  | .btsEvIb p rm imm => Sys2Proof.Machine.execBtsEvIb p rm imm s
  | .btrEvIb p rm imm => Sys2Proof.Machine.execBtrEvIb p rm imm s
  | .btcEvIb p rm imm => Sys2Proof.Machine.execBtcEvIb p rm imm s
  | .cmpxchg8bMq p m => Sys2Proof.Machine.execCmpxchg8bMq p m s
  | .faddM32 p m => Sys2Proof.Machine.execFaddM32 p m s
  | .faddM64 p m => Sys2Proof.Machine.execFaddM64 p m s
  | .fcomM32 p m => Sys2Proof.Machine.execFcomM32 p m s
  | .fcomM64 p m => Sys2Proof.Machine.execFcomM64 p m s
  | .fcompM32 p m => Sys2Proof.Machine.execFcompM32 p m s
  | .fcompM64 p m => Sys2Proof.Machine.execFcompM64 p m s
  | .fiaddM16 p m => Sys2Proof.Machine.execFiaddM16 p m s
  | .fiaddM32 p m => Sys2Proof.Machine.execFiaddM32 p m s
  | .ficomM16 p m => Sys2Proof.Machine.execFicomM16 p m s
  | .ficomM32 p m => Sys2Proof.Machine.execFicomM32 p m s
  | .ficompM16 p m => Sys2Proof.Machine.execFicompM16 p m s
  | .ficompM32 p m => Sys2Proof.Machine.execFicompM32 p m s
  | .fildM16 p m => Sys2Proof.Machine.execFildM16 p m s
  | .fildM32 p m => Sys2Proof.Machine.execFildM32 p m s
  | .fildM64 p m => Sys2Proof.Machine.execFildM64 p m s
  | .fimulM16 p m => Sys2Proof.Machine.execFimulM16 p m s
  | .fimulM32 p m => Sys2Proof.Machine.execFimulM32 p m s
  | .fistM16 p m => Sys2Proof.Machine.execFistM16 p m s
  | .fistM32 p m => Sys2Proof.Machine.execFistM32 p m s
  | .fistpM16 p m => Sys2Proof.Machine.execFistpM16 p m s
  | .fistpM32 p m => Sys2Proof.Machine.execFistpM32 p m s
  | .fistpM64 p m => Sys2Proof.Machine.execFistpM64 p m s
  | .fisubM16 p m => Sys2Proof.Machine.execFisubM16 p m s
  | .fisubM32 p m => Sys2Proof.Machine.execFisubM32 p m s
  | .fisubrM16 p m => Sys2Proof.Machine.execFisubrM16 p m s
  | .fisubrM32 p m => Sys2Proof.Machine.execFisubrM32 p m s
  | .fldM32 p m => Sys2Proof.Machine.execFldM32 p m s
  | .fldM64 p m => Sys2Proof.Machine.execFldM64 p m s
  | .fldM80 p m => Sys2Proof.Machine.execFldM80 p m s
  | .fmulM32 p m => Sys2Proof.Machine.execFmulM32 p m s
  | .fmulM64 p m => Sys2Proof.Machine.execFmulM64 p m s
  | .fstM32 p m => Sys2Proof.Machine.execFstM32 p m s
  | .fstM64 p m => Sys2Proof.Machine.execFstM64 p m s
  | .fstpM32 p m => Sys2Proof.Machine.execFstpM32 p m s
  | .fstpM64 p m => Sys2Proof.Machine.execFstpM64 p m s
  | .fstpM80 p m => Sys2Proof.Machine.execFstpM80 p m s
  | .fsubM32 p m => Sys2Proof.Machine.execFsubM32 p m s
  | .fsubM64 p m => Sys2Proof.Machine.execFsubM64 p m s
  | .fsubrM32 p m => Sys2Proof.Machine.execFsubrM32 p m s
  | .fsubrM64 p m => Sys2Proof.Machine.execFsubrM64 p m s
  | .addEbGb p rm g => Sys2Proof.Machine.execAddEbGb p rm g s
  | .addEvGv p rm g => Sys2Proof.Machine.execAddEvGv p rm g s
  | .addGbEb p g rm => Sys2Proof.Machine.execAddGbEb p g rm s
  | .addGvEv p g rm => Sys2Proof.Machine.execAddGvEv p g rm s
  | .addAlIb p imm => Sys2Proof.Machine.execAddAlIb p imm s
  | .addEaxIv p imm => Sys2Proof.Machine.execAddEaxIv p imm s
  | .orEbGb p rm g => Sys2Proof.Machine.execOrEbGb p rm g s
  | .orEvGv p rm g => Sys2Proof.Machine.execOrEvGv p rm g s
  | .orGbEb p g rm => Sys2Proof.Machine.execOrGbEb p g rm s
  | .orGvEv p g rm => Sys2Proof.Machine.execOrGvEv p g rm s
  | .orAlIb p imm => Sys2Proof.Machine.execOrAlIb p imm s
  | .orEaxIv p imm => Sys2Proof.Machine.execOrEaxIv p imm s
  | .adcEbGb p rm g => Sys2Proof.Machine.execAdcEbGb p rm g s
  | .adcEvGv p rm g => Sys2Proof.Machine.execAdcEvGv p rm g s
  | .adcGbEb p g rm => Sys2Proof.Machine.execAdcGbEb p g rm s
  | .adcGvEv p g rm => Sys2Proof.Machine.execAdcGvEv p g rm s
  | .adcAlIb p imm => Sys2Proof.Machine.execAdcAlIb p imm s
  | .adcEaxIv p imm => Sys2Proof.Machine.execAdcEaxIv p imm s
  | .sbbEbGb p rm g => Sys2Proof.Machine.execSbbEbGb p rm g s
  | .sbbEvGv p rm g => Sys2Proof.Machine.execSbbEvGv p rm g s
  | .sbbGbEb p g rm => Sys2Proof.Machine.execSbbGbEb p g rm s
  | .sbbGvEv p g rm => Sys2Proof.Machine.execSbbGvEv p g rm s
  | .sbbAlIb p imm => Sys2Proof.Machine.execSbbAlIb p imm s
  | .sbbEaxIv p imm => Sys2Proof.Machine.execSbbEaxIv p imm s
  | .andEbGb p rm g => Sys2Proof.Machine.execAndEbGb p rm g s
  | .andEvGv p rm g => Sys2Proof.Machine.execAndEvGv p rm g s
  | .andGbEb p g rm => Sys2Proof.Machine.execAndGbEb p g rm s
  | .andGvEv p g rm => Sys2Proof.Machine.execAndGvEv p g rm s
  | .andAlIb p imm => Sys2Proof.Machine.execAndAlIb p imm s
  | .andEaxIv p imm => Sys2Proof.Machine.execAndEaxIv p imm s
  | .subEbGb p rm g => Sys2Proof.Machine.execSubEbGb p rm g s
  | .subEvGv p rm g => Sys2Proof.Machine.execSubEvGv p rm g s
  | .subGbEb p g rm => Sys2Proof.Machine.execSubGbEb p g rm s
  | .subGvEv p g rm => Sys2Proof.Machine.execSubGvEv p g rm s
  | .subAlIb p imm => Sys2Proof.Machine.execSubAlIb p imm s
  | .subEaxIv p imm => Sys2Proof.Machine.execSubEaxIv p imm s
  | .xorEbGb p rm g => Sys2Proof.Machine.execXorEbGb p rm g s
  | .xorEvGv p rm g => Sys2Proof.Machine.execXorEvGv p rm g s
  | .xorGbEb p g rm => Sys2Proof.Machine.execXorGbEb p g rm s
  | .xorGvEv p g rm => Sys2Proof.Machine.execXorGvEv p g rm s
  | .xorAlIb p imm => Sys2Proof.Machine.execXorAlIb p imm s
  | .xorEaxIv p imm => Sys2Proof.Machine.execXorEaxIv p imm s
  | .cmpEbGb p rm g => Sys2Proof.Machine.execCmpEbGb p rm g s
  | .cmpEvGv p rm g => Sys2Proof.Machine.execCmpEvGv p rm g s
  | .cmpGbEb p g rm => Sys2Proof.Machine.execCmpGbEb p g rm s
  | .cmpGvEv p g rm => Sys2Proof.Machine.execCmpGvEv p g rm s
  | .cmpAlIb p imm => Sys2Proof.Machine.execCmpAlIb p imm s
  | .cmpEaxIv p imm => Sys2Proof.Machine.execCmpEaxIv p imm s
  | .popSs p => Sys2Proof.Machine.execPopSs p s
  | .pushIv p imm => Sys2Proof.Machine.execPushIv p imm s
  | .imulGvEvIv p g rm imm => Sys2Proof.Machine.execImulGvEvIv p g rm imm s
  | .pushIbs p imm => Sys2Proof.Machine.execPushIbs p imm s
  | .imulGvEvIbs p g rm imm => Sys2Proof.Machine.execImulGvEvIbs p g rm imm s
  | .testEbGb p rm g => Sys2Proof.Machine.execTestEbGb p rm g s
  | .testEvGv p rm g => Sys2Proof.Machine.execTestEvGv p rm g s
  | .xchgEbGb p rm g => Sys2Proof.Machine.execXchgEbGb p rm g s
  | .xchgEvGv p rm g => Sys2Proof.Machine.execXchgEvGv p rm g s
  | .movEbGb p rm g => Sys2Proof.Machine.execMovEbGb p rm g s
  | .movEvGv p rm g => Sys2Proof.Machine.execMovEvGv p rm g s
  | .movGbEb p g rm => Sys2Proof.Machine.execMovGbEb p g rm s
  | .movGvEv p g rm => Sys2Proof.Machine.execMovGvEv p g rm s
  | .movEwSreg p rm sr => Sys2Proof.Machine.execMovEwSreg p rm sr s
  | .leaGvM p g m => Sys2Proof.Machine.execLeaGvM p g m s
  | .movSregEw p sr rm => Sys2Proof.Machine.execMovSregEw p sr rm s
  | .nop p => Sys2Proof.Machine.execNop p s
  | .cbw p => Sys2Proof.Machine.execCbw p s
  | .cwd p => Sys2Proof.Machine.execCwd p s
  | .fwait p => Sys2Proof.Machine.execFwait p s
  | .pushf p => Sys2Proof.Machine.execPushf p s
  | .popf p => Sys2Proof.Machine.execPopf p s
  | .movAlMoffs p imm => Sys2Proof.Machine.execMovAlMoffs p imm s
  | .movEaxMoffs p imm => Sys2Proof.Machine.execMovEaxMoffs p imm s
  | .movMoffsAl p imm => Sys2Proof.Machine.execMovMoffsAl p imm s
  | .movMoffsEax p imm => Sys2Proof.Machine.execMovMoffsEax p imm s
  | .testAlIb p imm => Sys2Proof.Machine.execTestAlIb p imm s
  | .testEaxIv p imm => Sys2Proof.Machine.execTestEaxIv p imm s
  | .retIw p imm => Sys2Proof.Machine.execRetIw p imm s
  | .ret p => Sys2Proof.Machine.execRet p s
  | .int3 p => Sys2Proof.Machine.execInt3 p s
  | .intIb p imm => Sys2Proof.Machine.execIntIb p imm s
  | .iret p => Sys2Proof.Machine.execIret p s
  | .loopneRel8 p imm => Sys2Proof.Machine.execLoopneRel8 p imm s
  | .loopeRel8 p imm => Sys2Proof.Machine.execLoopeRel8 p imm s
  | .loopRel8 p imm => Sys2Proof.Machine.execLoopRel8 p imm s
  | .jcxzRel8 p imm => Sys2Proof.Machine.execJcxzRel8 p imm s
  | .inAlIb p imm => Sys2Proof.Machine.execInAlIb p imm s
  | .inEaxIb p imm => Sys2Proof.Machine.execInEaxIb p imm s
  | .outIbAl p imm => Sys2Proof.Machine.execOutIbAl p imm s
  | .outIbEax p imm => Sys2Proof.Machine.execOutIbEax p imm s
  | .callRelv p imm => Sys2Proof.Machine.execCallRelv p imm s
  | .jmpRelv p imm => Sys2Proof.Machine.execJmpRelv p imm s
  | .jmpPtr p off sel => Sys2Proof.Machine.execJmpPtr p off sel s
  | .jmpRel8 p imm => Sys2Proof.Machine.execJmpRel8 p imm s
  | .inAlDx p => Sys2Proof.Machine.execInAlDx p s
  | .inEaxDx p => Sys2Proof.Machine.execInEaxDx p s
  | .outDxAl p => Sys2Proof.Machine.execOutDxAl p s
  | .outDxEax p => Sys2Proof.Machine.execOutDxEax p s
  | .hlt p => Sys2Proof.Machine.execHlt p s
  | .cli p => Sys2Proof.Machine.execCli p s
  | .sti p => Sys2Proof.Machine.execSti p s
  | .invd p => Sys2Proof.Machine.execInvd p s
  | .wbinvd p => Sys2Proof.Machine.execWbinvd p s
  | .movRDr p r n => Sys2Proof.Machine.execMovRDr p r n s
  | .movDrR p n r => Sys2Proof.Machine.execMovDrR p n r s
  | .wrmsr p => Sys2Proof.Machine.execWrmsr p s
  | .rdtsc p => Sys2Proof.Machine.execRdtsc p s
  | .rdmsr p => Sys2Proof.Machine.execRdmsr p s
  | .cpuid p => Sys2Proof.Machine.execCpuid p s
  | .btEvGv p rm g => Sys2Proof.Machine.execBtEvGv p rm g s
  | .shldEvGvIb p rm g imm => Sys2Proof.Machine.execShldEvGvIb p rm g imm s
  | .shldEvGvCl p rm g => Sys2Proof.Machine.execShldEvGvCl p rm g s
  | .rsm p => Sys2Proof.Machine.execRsm p s
  | .btsEvGv p rm g => Sys2Proof.Machine.execBtsEvGv p rm g s
  | .shrdEvGvIb p rm g imm => Sys2Proof.Machine.execShrdEvGvIb p rm g imm s
  | .shrdEvGvCl p rm g => Sys2Proof.Machine.execShrdEvGvCl p rm g s
  | .imulGvEv p g rm => Sys2Proof.Machine.execImulGvEv p g rm s
  | .btrEvGv p rm g => Sys2Proof.Machine.execBtrEvGv p rm g s
  | .movzxGvEb p g rm => Sys2Proof.Machine.execMovzxGvEb p g rm s
  | .movzxGvEw p g rm => Sys2Proof.Machine.execMovzxGvEw p g rm s
  | .btcEvGv p rm g => Sys2Proof.Machine.execBtcEvGv p rm g s
  | .bsfGvEv p g rm => Sys2Proof.Machine.execBsfGvEv p g rm s
  | .bsrGvEv p g rm => Sys2Proof.Machine.execBsrGvEv p g rm s
  | .movsxGvEb p g rm => Sys2Proof.Machine.execMovsxGvEb p g rm s
  | .movsxGvEw p g rm => Sys2Proof.Machine.execMovsxGvEw p g rm s
  | .illegal0FFF p => Sys2Proof.Machine.execIllegal0FFF p s
  | .incR p r => Sys2Proof.Machine.execIncR p r s
  | .decR p r => Sys2Proof.Machine.execDecR p r s
  | .pushR p r => Sys2Proof.Machine.execPushR p r s
  | .popR p r => Sys2Proof.Machine.execPopR p r s
  | .xchgEaxR p r => Sys2Proof.Machine.execXchgEaxR p r s
  | .movR8Ib p r imm => Sys2Proof.Machine.execMovR8Ib p r imm s
  | .movRIv p r imm => Sys2Proof.Machine.execMovRIv p r imm s
  | .bswapR p r => Sys2Proof.Machine.execBswapR p r s
  | .jccRel8 p cc imm => Sys2Proof.Machine.execJccRel8 p cc imm s
  | .jccRelv p cc imm => Sys2Proof.Machine.execJccRelv p cc imm s
  | .setccEb p cc rm => Sys2Proof.Machine.execSetccEb p cc rm s

end Sys2Proof.Machine
end

