-- ==== Sys2Proof/Machine/Events.lean ====
section
/-! DEFINITION. What happens between two instructions (R650 to R664, R741 to R746, R860): the recognition order of R651,
each external event, and the low-power states. -/
namespace Sys2Proof.Machine

open Sys2Proof

/-! ### Time -/

/-- The time-stamp counter advances by a free positive number of clocks (R680). -/
def tick (s : State) : State :=
  (s.setMsr { s.msr with tsc := s.msr.tsc + BitVec.ofNat 64 (Config.clocks s.draws + 1) }).setDraws (s.draws + 1)

/-! ### The single events -/

/-- Deliver a vector between two instructions (R620): the machine leaves Halt or Shutdown; the saved image has RF clear. -/
def deliverAt (vec : Byte) (kind : EventKind) (s : State) : Host.Outcome State Fault Refusal :=
  let s := ((s.setClock .normal).setScr { s.scr with start := s.eip }).setIntr { s.intr with nmiFirst := false }
  takeEvent 8 { vec := vec, kind := kind, err := none, ret := s.eip, img := { s.flags with rf := false } } s

/-- The same for an event after which the boundary no longer follows the instruction before it (R714). -/
def deliverBetween (vec : Byte) (kind : EventKind) (s : State) : Host.Outcome State Fault Refusal :=
  deliverAt vec kind (s.setSmm { s.smm with lastIo := none })

/-- A debug trap that is due (R672 to R677); DR6 already holds its bits. -/
def takeDebugTrap (s : State) : Host.Outcome State Fault Refusal :=
  deliverBetween vDB .exception (s.setIntr { s.intr with dbTrap := false })

/-- Machine check (R612): an SMI# taken after it at this boundary still records the I/O instruction (R715). -/
def takeMachineCheck (s : State) : Host.Outcome State Fault Refusal :=
  deliverAt vMC .external (s.setIntr { s.intr with mcPending := false })

/-- Enter the Hardware Debug Tool mode (R860): the pipeline is flushed. -/
def enterHdt (s : State) : State := dropMarks (s.setTest { s.test with hdt := true })

/-- Drive the Halt special cycle again, if halted (R654, R742). -/
def redriveHalt (s : State) : State := if s.clock = .halt then special 0xFB 0 s else s

/-- Another agent has the address bus, or the whole bus (R230, R231, R233). -/
def State.busHeld (s : State) : Bool := s.pins.hold || s.pins.ahold || s.pins.boff

/-- The processor may start no bus cycle (R210, R230, R231, R233). -/
def State.busBusy (s : State) : Bool := s.busHeld || s.pins.init

/-- The Flush Acknowledge cycle ends a FLUSH# operation (R222, R654). -/
def flushAcknowledge (s : State) : State := redriveHalt (special 0xEF 0 (s.setBiu { s.biu with flush := .idle }))

/-- One step of a FLUSH# operation (R222, R654): a writeback; once none is left, the invalidation of everything with the Flush
Acknowledge cycle. An inquire cycle or a loss of the bus can come between. With nothing modified the invalidation does not wait
for the bus. -/
def flushStep (s : State) : State :=
  match s.biu.flush with
  | .idle => s
  | .copying done =>
    match s.flushTodo done with
    | [] =>
      let t := endFlush s
      if done.isEmpty && s.busBusy then t.setBiu { t.biu with flush := .acknowledge } else flushAcknowledge t
    | first :: rest =>
      (flushOne first rest s).setBiu { s.biu with flush := .copying (chooseLine s.draws first rest :: done) }
  | .acknowledge => flushAcknowledge s

/-- FLUSH# is recognised (R654): the operation begins. -/
def takeFlush (s : State) : State :=
  flushStep ((s.setIntr { s.intr with flush := false }).setBiu { s.biu with flush := .copying [] })

/-- The registers INIT sets (R71, R780): CR0 keeps CD and NW; the MSRs, the FPU and the caches keep everything. -/
def initRegisters (s : State) : State :=
  let s := ((s.setGpr (.reset s.plat)).setEip 0x0000FFF0).setFlags .reset
  let s := ((s.setCpl 0).setSeg .reset).setSys .reset
  (s.setCr { cr0 := 0x00000010 ||| (s.cr.cr0 &&& 0x60000000), cr2 := 0, cr3 := 0, cr4 := 0 }).setDr .reset

/-- INIT (R656, R780): the first fetch precedes every other event, but for an NMI after Stop Grant. -/
def takeInit (s : State) : State :=
  let s := flushTlbAll (initRegisters s)
  let s := s.setIntr { s.intr with init := false, nmiMasked := false, shadow := .init, dbTrap := false, handling := none }
  let s := s.setScr { s.scr with afterSs := false }
  let s := s.setSmm { s.smm with lastIo := none }
  dropMarks (dropLinearTags (s.setClock .normal))

/-- NMI (R658). -/
def takeNmi (s : State) : Host.Outcome State Fault Refusal :=
  deliverBetween vNMI .external (s.setIntr { s.intr with nmi := false, nmiMasked := true })

/-- The interrupt acknowledge (R215), which serializes (R151) and does not look at EWBE#. -/
def acknowledge (s : State) : State := dropMarks (drive (.intAck s.pins.vector) s)

/-- INTR (R657): the acknowledge returns the vector; where EWBE# may hold the stack writes off, the delivery is a step of its own
(R660). -/
def takeIntr (s : State) : Host.Outcome State Fault Refusal :=
  if !s.pins.ewbe then .next ((acknowledge s).setIntr { s.intr with acked := some s.pins.vector })
  else deliverBetween s.pins.vector .external (acknowledge s)

/-- Deliver an INTR that was acknowledged before. -/
def takeAcked (vec : Byte) (s : State) : Host.Outcome State Fault Refusal :=
  deliverBetween vec .external (s.setIntr { s.intr with acked := none })

/-- Where Stop Grant returns to (R743). -/
def grantFrom : Clock → GrantFrom
  | .halt => .halt
  | .shutdown => .shutdown
  | .normal => .normal
  | .stopGrant f => f
  | .stopClock f => f
  | .stopGrantInquire (.grant f) => f
  | .stopGrantInquire .halt => .halt
  | .stopGrantInquire .shutdown => .shutdown

/-- The state Stop Grant was entered from. -/
def GrantFrom.clock : GrantFrom → Clock
  | .normal => .normal
  | .halt => .halt
  | .shutdown => .shutdown

/-- STPCLK# (R744): the Stop Grant special cycle, then Stop Grant. -/
def takeStpclk (s : State) : State := (special 0xFB 0x10 s).setClock (.stopGrant (grantFrom s.clock))

/-- The state Stop Grant Inquire was entered from, and returns to once a writeback is done (R745). -/
def InquireFrom.clock : InquireFrom → Clock
  | .halt => .halt
  | .shutdown => .shutdown
  | .grant f => .stopGrant f

/-- STPCLK# is negated: back to where Stop Grant came from; a return to Halt drives the Halt cycle again (R741). An INIT and an
NMI that were both latched meanwhile bring the NMI before any fetch (R656). -/
def leaveGrant (f : GrantFrom) (s : State) : State :=
  (redriveHalt (s.setClock f.clock)).setIntr
    { s.intr with grantExit := true, nmiFirst := s.intr.init && s.intr.nmi }

/-! ### Recognition -/

/-- What a boundary leads to: the end of this step, or the next instruction. -/
inductive Boundary
  | done (o : Host.Outcome State Fault Refusal)
  | go (s : State)

/-- A request of the debug tool (R860): R/S# Low, or USEHDT. -/
def State.hdtAsked (s : State) : Bool := s.pins.rs || s.test.hdtByTap

/-- The debug tool's request is served, with INIT asserted too (R780, R860), or else something follows. -/
def tryHdt (s : State) (other : State → Boundary) : Boundary :=
  if s.hdtAsked then .done (.next (enterHdt s)) else other s

/-- No instruction runs outside the Normal state. -/
def runOrWait (s : State) : Boundary := if s.clock = .normal then .go s else .done (.next s)

/-- SMIACT# and the Stop Grant cycle wait until EWBE# is sampled asserted, whatever was written (R702, R744, C28). -/
def needEwbe (s : State) (t : State) : Boundary := .done (.next (if s.pins.ewbe then t else s))

/-- INTR is recognised (R657): IF, no STI shadow, not in Shutdown, and the bus is the processor's. -/
def State.intrReady (s : State) : Bool :=
  s.pins.intr && s.flags.ifl && s.intr.shadow != .sti && s.clock != .shutdown && !s.busHeld

/-- STPCLK# is recognised (R744). Asserted again after the exit from Stop Grant, it lets an instruction run first (R810); none runs
where it is negated and asserted again before any boundary sees it negated (R747). -/
def recogniseStpclk (s : State) : Boundary :=
  if !s.pins.stpclk || s.busHeld || (s.intr.grantExit && decide (s.clock = .normal)) then runOrWait s
  else needEwbe s (takeStpclk s)

/-- The events a shadow holds off, in order (R651): FLUSH#, SMI#, INIT, NMI, INTR, STPCLK#. While INIT is held asserted all of
them but INIT itself stay latched (R184, R656). DESIGN CHOICE (log 55): so does a FLUSH# or SMI# latched before INIT rose, which R651
and R655 rank above INIT; INIT is taken first. -/
def recogniseRest (s : State) : Boundary :=
  if s.pins.init then
    if s.intr.init && !s.smm.active then .done (.next (takeInit s)) else runOrWait s
  else if s.intr.flush then .done (.next (takeFlush s))
  else if s.intr.smi && !s.smm.active then needEwbe s (smmEnter s)
  else if s.intr.init && !s.smm.active then .done (.next (takeInit s))
  else if s.intr.nmi && !s.intr.nmiMasked then .done (takeNmi s)
  else if s.intrReady then .done (takeIntr s)
  else recogniseStpclk s

/-- What a shadow lets through (R61, R333, R656): after a load of SS nothing; after INIT only an NMI that Stop Grant held
back. INIT still asserted, AHOLD, BOFF# and HOLD prevent the first fetch after it, from a cache too (R780). -/
def recogniseShadowed (s : State) : Boundary :=
  match s.intr.shadow with
  | .none => recogniseRest s
  | .sti => recogniseRest s
  | .ss => runOrWait s
  | .init =>
    if s.busBusy then .done (.next s)
    else if s.intr.nmiFirst && s.intr.nmi && !s.intr.nmiMasked then .done (takeNmi s)
    else runOrWait s

/-- Machine check and R/S#, which no shadow holds off (R651). -/
def recogniseUrgent (s : State) : Boundary :=
  if s.intr.mcPending && decide (s.clock = .normal) && s.intr.shadow != .init then .done (takeMachineCheck s)
  else tryHdt s recogniseShadowed

/-- An SMI# that is taken at the boundary of an IN or OUT puts the debug trap off (R722): neither a machine check nor INIT comes
before it. DESIGN CHOICE (log 36): with a machine check pending too, of which R715 and R722 say nothing together, the debug trap is
delivered first. -/
def State.postpones (s : State) : Bool :=
  s.intr.smi && s.smm.lastIo.isSome && !s.smm.active && !s.pins.init && !s.intr.mcPending

/-- An operation that has begun is finished first: FLUSH#, or an acknowledged INTR (R222, R657). Then a debug trap of the
instruction that has just completed (R651, R674), unless it had loaded SS; in Shutdown there is none (R630). -/
def recognise (s : State) : Boundary :=
  match s.biu.flush, s.intr.acked with
  | .idle, none =>
    if s.intr.dbTrap && s.intr.shadow != .ss && s.clock != .shutdown && !s.postpones then .done (takeDebugTrap s) else recogniseUrgent s
  | .idle, some vec => .done (takeAcked vec s)
  | .copying _, _ => .done (.next (flushStep s))
  | .acknowledge, _ => .done (.next (flushStep s))

/-! ### The boundary -/

/-- The TAP instruction forces or floats the outputs: HIGHZ, ALL1, ALL0 (R872, R873). -/
def Tap.forcesOutputs (t : Tap) : Bool := t.ir == 0b00011 || t.ir == 0b00100 || t.ir == 0b00101

/-- HWCR.DC holds a reserved value (R833, U16). -/
def State.badDc (s : State) : Bool := decide (2 ≤ (s.msr.hwcr.extractLsb' 1 3).toNat)

/-- What follows at an instruction boundary or in a low-power state. RUNBIST holds the processor in reset (R874), HDT
mode and Stop Clock do nothing (R860, R750), a cycle without an answer never ends (R200), Stop Grant lasts while STPCLK# is
asserted (R743). DESIGN CHOICE (log 54): a FLUSH# latched in Stop Grant is held until STPCLK# is negated (R184, R746), though
R654 and R752 say that it is served there; Stop Grant Inquire that AHOLD, BOFF# or HOLD began lasts one step where no writeback
waits, whether an inquire cycle follows or not (R745 says nothing of one that does not). -/
def boundary (s : State) : Boundary :=
  if s.test.floatTest then .done (.fault .outputFloat)
  else if s.test.tap.forcesOutputs then .done (.fault .outputsForced)
  else if s.test.tap.ir == 0b00111 then .done (.next s)
  else
    match s.clock with
    | .stopClock _ => .done (.next s)
    | .stopGrantInquire f => .done (.next (if s.biu.writeback.isNone then (tick s).setClock f.clock else tick s))
    | .stopGrant f =>
      if s.test.hdt then .done (.next (tick s))
      else tryHdt (tick s) fun s => if s.pins.stpclk then .done (.next s) else recognise (leaveGrant f s)
    | .normal => awake s
    | .halt => awake s
    | .shutdown => awake s
where
  /-- Outside Stop Grant and Stop Clock. -/
  awake (s : State) : Boundary :=
    if s.test.hdt || s.biu.hung then .done (.next (tick s))
    else if s.badDc then .done (.refused .debugControl)
    else recognise (tick s)

end Sys2Proof.Machine
end

