-- ==== Sys2Proof/Machine/Fetch.lean ====
section
/-! DEFINITION. Before and after the meaning of an instruction: the instruction breakpoint (R671), the fetch and decode
of its bytes (R280), and the debug traps and RF at its end (R671 to R674). -/
namespace Sys2Proof.Machine

open Sys2Proof

/-! ### The beginning of an instruction -/

/-- What the step notes when an instruction begins: nothing matched yet, TF as it is, the shadow of the one before it
used up (R61, R674). -/
def begin (s : State) : State :=
  let s := s.setScr { start := s.eip, hit0 := false, hit1 := false, hit2 := false, hit3 := false, tf := s.flags.tf,
                      noTrap := false, rfLoaded := false, afterSs := s.intr.shadow == .ss, fop := 0 }
  let s := s.setIntr { s.intr with shadow := .none, grantExit := false, nmiFirst := false }
  s.setSmm { s.smm with lastIo := none }

/-- Breakpoint `n` is an enabled instruction breakpoint at a linear address (R671). -/
def DebugRegs.breaksAt (d : DebugRegs) (la : Word) (n : Nat) : Bool :=
  d.enabled n && d.rw n == 0 && d.addr n == la

/-- One of the matching breakpoints, freely (R672, U8). -/
def chooseHit : List Nat → M Nat
  | [] => pure 0
  | [n] => pure n
  | n :: t => do
    let b ← drawBit
    if b then pure n else chooseHit t

/-- The debug fault of an instruction breakpoint: the saved image has RF clear (R671). -/
def breakFault (n : Nat) : Exc :=
  { vec := vDB, err := none, cr2 := none, dr6 := bitAt true n, clearGd := false, setRf := false, committed := false }

/-- The instruction breakpoint, before anything else of the instruction (R618, R671). -/
def checkBreak : M Unit := do
  let s ← get
  if s.flags.rf || s.dr.dr7.extractLsb' 0 8 == 0 then pure ()
  else
    match [0, 1, 2, 3].filter (s.dr.breaksAt (s.linear .cs s.eip)) with
    | [] => pure ()
    | n :: t => do
      let k ← chooseHit (n :: t)
      throw (.exc (breakFault k))

/-! ### Fetch -/

/-- A prefix byte (R261). -/
def isPrefix (b : Byte) : Bool := b == 0x66 || b == 0x67 || b == 0xF0 || (overrideSeg b.toNat).isSome

/-- The bytes after the prefixes. -/
def skipPrefixes : List Byte → List Byte
  | [] => []
  | b :: t => if isPrefix b then skipPrefixes t else b :: t

/-- The bytes so far are an LLDT or LTR with PE = 0 or VM = 1, which no later byte can make valid (R279 i, R606); the other cases
the decoder itself sees. -/
def decidedInvalid (s : State) (bs : List Byte) : Bool :=
  match skipPrefixes bs with
  | b0 :: b1 :: m :: _ =>
    b0 == 0x0F && b1 == 0x00 && (m.extractLsb' 3 3 == 2 || m.extractLsb' 3 3 == 3) && s.mode != .prot
  | _ => false

/-- Opcode bits 2-0 and the ModRM byte, as the last-opcode register records them (R56). -/
def fopOf (bs : List Byte) : BitVec 11 :=
  match skipPrefixes bs with
  | b0 :: b1 :: _ => b0.extractLsb' 0 3 ++ b1
  | _ => 0

/-- An instruction fetch as an access (R125). -/
def State.fetchAccess (s : State) : Access := { s.access false with code := true }

/-- Fetch one instruction byte at an offset in CS (R280): limit, translation, cache. Of an instruction that is invalid already a
byte over the limit raises UD, not GP(0) (R279, R606). -/
def fetchNext (off : Word) (invalid : Bool) (prev : Option Xlat) : M (Byte × Xlat) := do
  let s ← get
  if invalid && s.mode != .smm && decide (s.seg.cs.byteLimit < off.toNat) then ud
  else do
    segCheck .cs off 1 .execute
    let la := s.linear .cs off
    let x ← pageXlat la s.fetchAccess prev
    let b ← fetchByte { la := la, pa := x.pa, us := x.us, wr := x.wr, pcd := x.pcd, pwt := x.pwt }
    pure (b, x)

noncomputable section

/-- One more byte of an instruction, of which `bs` are the bytes so far. -/
def fetchByteAfter (bs : List Byte) (invalid : Bool) (prev : Option Xlat) : M (Byte × Xlat) := do
  let s ← get
  fetchNext (s.eip + BitVec.ofNat 32 bs.length) invalid prev

/-- Fetch bytes until they decode (R260, R280): at most fifteen, else GP(0). DESIGN CHOICE (log 56): that comes before the UD of an
instruction that is invalid already; R260 and R279 give no order. -/
def fetchInstr : Nat → List Byte → Option Xlat → M (Instr × List Byte)
  | 0, _, _ => gp0
  | fuel + 1, bs, prev => do
    let s ← get
    match decode s.code32 bs with
    | .ok i _ => pure (i, bs)
    | .ud => ud
    | .refused name => refuse (.outOfScope name)
    | .more =>
      if fuel = 0 then gp0
      else do
        let (b, x) ← fetchByteAfter bs (decidedInvalid s bs) prev
        fetchInstr fuel (bs ++ [b]) (some x)
    | .doomed =>
      if fuel = 0 then gp0
      else do
        let (b, x) ← fetchByteAfter bs true prev
        fetchInstr fuel (bs ++ [b]) (some x)

/-- Breakpoint check, fetch and decode; the step then knows the next EIP (R15) and the x87 opcode. -/
def fetchDecode : M Instr := do
  checkBreak
  let (i, bs) ← fetchInstr 16 [] none
  update fun s => (s.setNextEip (s.eip + BitVec.ofNat 32 bs.length)).setScr { s.scr with fop := fopOf bs }
  pure i

end

/-! ### The end of an instruction -/

/-- RF is cleared by an instruction that completes, unless it loaded RF (R671). -/
def clearRf (s : State) : State :=
  if s.scr.rfLoaded then s else s.setFlags { s.flags with rf := false }

/-- The breakpoints the instruction matched. -/
def State.hits (s : State) : List Nat :=
  (if s.scr.hit0 then [0] else []) ++ (if s.scr.hit1 then [1] else []) ++ (if s.scr.hit2 then [2] else [])
    ++ (if s.scr.hit3 then [3] else [])

/-- Exactly one of the matching B bits, freely (R672, U8). -/
def bitOfHits (draw : Nat) : List Nat → Word
  | [] => 0
  | [n] => bitAt true n
  | n :: t => if Config.freeBit draw then bitAt true n else bitOfHits (draw + 1) t

/-- The debug trap of an instruction that completed: BS for single step, one B bit for its breakpoints (R672 to R674). -/
def noteTraps (s : State) : State :=
  if s.scr.tf || !s.hits.isEmpty then
    let bits := bitOfHits s.draws s.hits ||| bitAt s.scr.tf 14
    let s := s.setDraws (s.draws + 3)
    (s.setDr { s.dr with dr6 := s.dr.dr6 ||| bits }).setIntr { s.intr with dbTrap := true }
  else s

/-- The end of an instruction: nothing if it ended in an exception or only waits. -/
def finish (s : State) : State := if s.scr.noTrap then s else noteTraps (clearRf s)

/-! ### Placing an instruction -/

/-- The physical address a fetch at an offset of CS uses, without its side effects. -/
def State.fetchPa (s : State) (off : Word) : Option Nat :=
  match translate (s.linear .cs off) s.fetchAccess s with
  | .ok x _ => some x.pa
  | .error _ _ => none

/-- Put one byte where the fetch at `off` reads it: memory, and no cached or prefetched copy of another value. -/
def State.placeByte (s : State) (off : Word) (b : Byte) : State :=
  match s.fetchPa off with
  | none => s
  | some pa =>
    let s := dropLine (lineOf pa) s
    let marks := s.cache.marks.filter fun m => m.pa != pa
    (s.setMem (s.mem.write pa b)).setCache { s.cache.iDrop (lineOf pa) with marks := marks }

/-- Put bytes where the fetch at `off` and after it reads them. -/
def State.placeBytes : State → Word → List Byte → State
  | s, _, [] => s
  | s, off, b :: bs => State.placeBytes (s.placeByte off b) (off + 1) bs

end Sys2Proof.Machine
end

