-- ==== Sys2Proof/Machine/Step.lean ====
section
/-! DEFINITION. One step of the machine: an event, a wait, or one instruction (R18, R651), and what the bus interface makes of
it: a step that needs the bus, or a write that EWBE# holds off, waits with nothing done (log 54). -/
namespace Sys2Proof.Machine

open Sys2Proof

/-! ### One instruction -/

/-- The end of a step: what an instruction leaves at its end is added to its next state. -/
def finishOutcome (o : Host.Outcome State Fault Refusal) : Host.Outcome State Fault Refusal :=
  match o with
  | .next s => .next (finish s)
  | .fault f => .fault f
  | .refused r => .refused r

/-- The first instruction of a handler has been fetched: a later exception is no second one (R628). -/
def handled (s : State) : State := s.setIntr { s.intr with handling := none }

/-- The double fault of an exception on the fetch of a handler's first instruction (R628): the flags are those of the handler, with RF
free (log 31). -/
def lateDoubleFault (h : Handling) (s : State) : Event :=
  { vec := vDF, kind := .exception, err := some 0, ret := h.ret, img := { s.flags with rf := Config.freeBit s.draws } }

/-- The error code of a second exception has EXT, but for page faults, whose code has no such bit (R619, R628). -/
def Exc.second (h : Handling) (x : Exc) : Exc :=
  if h.kind = .software ∨ x.vec = vPF then x else { x with err := x.err.map fun c => withExt c true }

/-- An exception on the way to an instruction: on the first of a handler it is a second one (R628). -/
def fetchException (x : Exc) (before after : State) : Host.Outcome State Fault Refusal :=
  let t := excState x before after
  match before.intr.handling with
  | none => takeEvent 8 (excEvent x t) t
  | some h =>
    match second (h.kind.cls h.vec) (excClass x.vec) with
    | .deliverIt => takeEvent 8 (excEvent (x.second h) t) t
    | .doubleFault => takeEvent 8 (lateDoubleFault h t) (t.setDraws (t.draws + 1))
    | .shutdown => .next (enterShutdown t)

noncomputable section

/-- Fetch, decode and execute one instruction. -/
def runInstr (s : State) : Host.Outcome State Fault Refusal :=
  match fetchDecode (begin s) with
  | .ok i t => finishOutcome (exec i (handled t))
  | .error (.exc x) t => fetchException x (begin s) t
  | .error (.fault f) _ => .fault f
  | .error (.refused r) _ => .refused r
  | .error .wait t => .next t

/-- An event, a wait, or one instruction, wherever the bus is. -/
def advanceOnce (s : State) : Host.Outcome State Fault Refusal :=
  match boundary s with
  | .done o => o
  | .go t => runInstr t

end

/-! ### The bus interface around it -/

/-- An event is a write on the bus, of memory or I/O (R147). -/
def CacheEvent.external : CacheEvent → Bool
  | .cycle c => c.wr && c.dc
  | .snooped _ => true
  | .aborted _ => false
  | .store => false
  | .retag => false
  | .serial => false

/-- An event waits for EWBE# after a write on the bus: writes, I/O cycles, serializing instructions (R147, R193). -/
def CacheEvent.waitsEwbe : CacheEvent → Bool
  | .cycle c => c.dc && (c.wr || !c.mio)
  | .snooped _ => true
  | .aborted _ => false
  | .store => true
  | .retag => false
  | .serial => true

/-- An event in whose first clock BREQ is asserted (R234). -/
def CacheEvent.requests : CacheEvent → Bool
  | .cycle _ => true
  | .snooped _ => true
  | .aborted _ => true
  | .store => true
  | .retag => true
  | .serial => false

/-- What a step added to the record of events, oldest first. -/
def added (s t : State) : List CacheEvent :=
  (t.cache.events.take (t.cache.events.length - s.cache.events.length)).reverse

/-- A memory cycle at a silent address is among the events (R110, R200). -/
def touchesSilent (p : Platform) (es : List CacheEvent) : Bool :=
  es.any fun e => match e.toCycle with
    | none => false
    | some c => c.mio && silentAt p c.addr.toNat

/-- With EWBE# negated, after a write on the bus in an earlier step or in this one, something of the step waits (R147, R193,
R202). -/
def ewbeStops (waiting : Bool) (es : List CacheEvent) : Bool :=
  (if waiting then es else (es.dropWhile fun e => !e.external).drop 1).any (·.waitsEwbe)

/-- What is left of a record, oldest first, after so many of the step's own cycles. -/
def afterOwn : Nat → List CacheEvent → List CacheEvent
  | _, [] => []
  | 0, e :: es => e :: es
  | k + 1, e :: es => afterOwn (if e.own.isSome then k else k + 1) es

/-- An inquire cycle of the step hits a modified line, and something of the step would come after it that may not go before its
writeback, which EWBE# may hold off, nor just after it (R147, R238). -/
def snoopStops (t : State) (es : List CacheEvent) : Bool :=
  t.cache.snoops.any fun q =>
    q.reply.isNone && t.modifiedLine q.line && (afterOwn q.after es).any fun e => e.toCycle.isSome || e.waitsEwbe

/-- The step from `s` to `t` waits for EWBE#. -/
def ewbeHolds (s t : State) : Bool :=
  !s.pins.ewbe && (ewbeStops s.biu.ewbeWait (added s t) || snoopStops t (added s t))

/-- The step needs the bus and cannot have it, or a writeback that waits goes first, or a cycle of it would not be answered now
(R200, R210, R238). -/
def offBus (s : State) (es : List CacheEvent) : Bool :=
  (es.any fun e => e.toCycle.isSome) && (s.busBusy || s.biu.writeback.isSome || !s.pins.brdy)

/-- The step from `s` to `t` cannot be done now. -/
def stopped (s t : State) : Bool :=
  offBus s (added s t) || touchesSilent s.plat (added s t) || ewbeHolds s t

/-- The step waits with nothing done; BREQ is asserted while it lacks the bus, but for Halt and Shutdown, or has begun a cycle (R234);
once it has the bus, at a silent address it waits for ever. -/
def waitStep (s t : State) : State :=
  (tick s).setBiu { s.biu with
    want := s.biu.want || (s.clock = .normal && offBus s (added s t)) || touchesSilent s.plat (added s t)
    hung := !offBus s (added s t) && !ewbeHolds s t && touchesSilent s.plat (added s t) }

/-- The step is done; a write on the bus with EWBE# negated holds off the next one (R147). -/
def endStep (s t : State) : State :=
  t.setBiu { t.biu with
    want := s.biu.want || (added s t).any (·.requests)
    ewbeWait := !s.pins.ewbe && (s.biu.ewbeWait || (added s t).any (·.external)) }

/-- The cycle that BOFF# aborts, if the step has it, goes before its identical repetition, and before the writeback of an inquire
cycle that came with BOFF# (R231, C23). DESIGN CHOICE (log 54): inside a locked operation too that one cycle is repeated and none
that was complete (R232), though R510 says that an aborted locked operation starts again from its read. -/
def abortCycle (before after : State) : State :=
  match before.biu.backoff with
  | none => after
  | some k =>
    let aborted := (before.cache.events.reverse.filterMap CacheEvent.own)[k]?
    let es := after.cache.events.reverse
    let es := match aborted with
      | none => es
      | some c => insertAfter (fun _ _ => .aborted c) k none es
    (after.setCache { after.cache with events := es.reverse }).setBiu { after.biu with backoff := none }

/-- What the bus interface makes of a step. -/
def settle (s t : State) : State :=
  let u := if stopped s t then waitStep s t else endStep s t
  abortCycle u (answerSnoops u)

/-- Before a step: the record of the last one is dropped, IGNNE# is sampled, and a writeback that waited is driven as soon as the bus
is the processor's, before anything else (R238); an inquire cycle that comes by then is not sampled (R236). -/
def openStep (s : State) : State :=
  let s := s.setBiu { s.biu with want := false, pchk := false, ierr := false, ignne := s.ignne }
  let s := s.setCache { s.cache with events := [], apchk := false }
  match s.biu.writeback with
  | none => s.setCache { s.cache with hitm := false }
  | some (line, _) =>
    if s.writebackWaits then s
    else
      let s := driveSnooped .cycle line s
      (s.setCache { s.cache with hitm := false, snoops := s.cache.snoops.filter fun q => q.after != 0 }).setBiu
        { s.biu with writeback := none }

noncomputable section

/-- One step. -/
def step (s : State) : Host.Outcome State Fault Refusal :=
  match advanceOnce (openStep s) with
  | .next t => .next (settle (openStep s) t)
  | .fault f => .fault f
  | .refused r => .refused r

end

/-- The state with an instruction of the opcode table placed at the next fetch. -/
def State.withFetchWord (s : State) (nbits w : Nat) : State := s.placeBytes s.eip (tableBytes nbits w)

end Sys2Proof.Machine
end

