-- ==== Sys2Proof/Safety.lean ====
section
/-! DEFINITION. The words the statements are written in: where an access is plain, what an operand is, what an instruction
leaves alone, and what a sane state is. -/
namespace Sys2Proof.Machine

open Sys2Proof

/-! ### Plain accesses -/

/-- Paging is off, no cached line differs from memory, memory is RAM throughout, and no breakpoint is enabled: an access only
checks its segment and reaches memory at its linear address. -/
def State.flat (s : State) : Bool :=
  !s.pg && !s.cache.foreign && ramOnly s.plat && s.dr.dr7.extractLsb' 0 8 == 0

/-- The address of byte `k` of an access at an offset of a segment (R100, R112). -/
def State.byteAddr (s : State) (seg : Seg) (off : Word) (k : Nat) : Nat :=
  (s.linear seg (off + BitVec.ofNat 32 k)).toNat

/-- The segment permits `n` bytes at an offset (R112). -/
def State.inSeg (s : State) (seg : Seg) (off : Word) (n : Nat) (write : Bool) : Bool :=
  let r := s.seg.get seg
  match s.mode with
  | .smm => true
  | .real => decide (off.toNat + n ≤ r.byteLimit + 1)
  | .v86 => decide (off.toNat + n ≤ r.byteLimit + 1)
  | .prot => !nullSel r.sel && (if write then r.attr.writable else r.attr.readable) && r.inLimit off n

/-- The address has the natural alignment, or alignment is not checked (R617). -/
def State.alignedAt (s : State) (seg : Seg) (off : Word) (al : Nat) : Bool :=
  !(s.am && s.flags.ac && s.level == 3) || s.byteAddr seg off 0 % al == 0

/-- `n` bytes at an offset of a segment may be read, or written (R112, R617). -/
def State.may (s : State) (seg : Seg) (off : Word) (n al : Nat) (write : Bool) : Bool :=
  s.inSeg seg off n write && s.alignedAt seg off al

/-- An access to memory: whether it is a push or a pop, its segment and offset, how many bytes, their natural alignment, whether it
writes. -/
structure Use where
  stack : Bool
  seg : Seg
  off : Word
  n : Nat
  al : Nat
  write : Bool
  deriving DecidableEq, Repr

/-- The access is allowed (R112, R617). -/
def State.allows (s : State) (x : Use) : Bool := s.may x.seg x.off x.n x.al x.write

/-- The exception of an access that is not allowed (R112, R440, R617): in Protected mode GP for a null selector or a segment of another
type, SS for those of a push or a pop, which is the model's reading (log 8); SS for the limit of SS, GP for that of another segment;
AC for an access that is only misaligned. -/
def State.denies (s : State) (x : Use) : Byte :=
  let r := s.seg.get x.seg
  if s.inSeg x.seg x.off x.n x.write then vAC
  else if s.mode == .prot && (nullSel r.sel || !(if x.write then r.attr.writable else r.attr.readable)) then
    if x.stack then vSS else vGP
  else if x.seg = .ss then vSS else vGP

/-- The `n` bytes at an offset of a segment. -/
def State.bytes (s : State) (seg : Seg) (off : Word) (n : Nat) : List Byte :=
  (List.range n).map fun k => s.mem.read (s.byteAddr seg off k)

/-- The little-endian value of `n` bytes at an offset of a segment (R101). -/
def State.value (s : State) (seg : Seg) (off : Word) (n w : Nat) : BitVec w := ofLe w (s.bytes seg off n)

/-- The address of byte `k` of a system structure at a linear address: a descriptor, a TSS, a vector (R100). -/
def State.sysAddr (s : State) (la : Word) (k : Nat) : Nat := (s.maskA20 (la + BitVec.ofNat 32 k)).toNat

/-- The `n` bytes of a system structure. -/
def State.sysBytes (s : State) (la : Word) (n : Nat) : List Byte :=
  (List.range n).map fun k => s.mem.read (s.sysAddr la k)

/-! ### Operands -/

/-- An operand: a register view, or memory at an offset of a segment. -/
inductive Place
  | reg (r : Reg)
  | mem (seg : Seg) (off : Word)
  deriving DecidableEq, Repr

/-- The place an r/m operand names (R264 to R268). -/
def placeOf (p : Pfx) (g : Gpr) : RM → Place
  | .reg r => .reg r
  | .mem m => .mem (segFor p m) (effAddr m g)

/-- The place may be read, or written, at an operand size. -/
def State.mayUse (s : State) (sz : Size) (write : Bool) : Place → Bool
  | .reg _ => true
  | .mem seg off => s.may seg off sz.bytes sz.bytes write

/-- The value at a place. -/
def State.get (s : State) (sz : Size) : Place → BitVec sz.bits
  | .reg r => s.view sz r
  | .mem seg off => s.value seg off sz.bytes sz.bits

/-- Memory after is memory before with these bytes at an offset of a segment, and nothing else changed. -/
def Stored (s t : State) (seg : Seg) (off : Word) (vs : List Byte) : Prop :=
  (∀ k, k < vs.length → t.mem.read (s.byteAddr seg off k) = vs.getD k 0) ∧
  (∀ a, (∀ k, k < vs.length → a ≠ s.byteAddr seg off k) → t.mem.read a = s.mem.read a)

/-- The same for several runs of bytes of one segment, each at its offset. -/
def StoredAll (s t : State) (seg : Seg) (l : List (Word × List Byte)) : Prop :=
  (∀ x ∈ l, ∀ k, k < x.2.length → t.mem.read (s.byteAddr seg x.1 k) = x.2.getD k 0) ∧
  (∀ a, (∀ x ∈ l, ∀ k, k < x.2.length → a ≠ s.byteAddr seg x.1 k) → t.mem.read a = s.mem.read a)

/-! ### The stack -/

/-- The offset of the stack after `n` more bytes are pushed onto a stack pointer (R440). -/
def State.pushOff (s : State) (esp : Word) (n : Nat) : Word :=
  spOf s.bigStack (spAdd s.bigStack esp (0 - BitVec.ofNat 32 n))

/-- The offset `i` bytes above the top of the stack (R440). -/
def State.stackOff (s : State) (i : Nat) : Word :=
  spOf s.bigStack (spAdd s.bigStack s.gpr.esp (BitVec.ofNat 32 i))

/-- The stack pointer after `n` bytes are popped. -/
def State.popped (s : State) (n : Nat) : Word := spAdd s.bigStack s.gpr.esp (BitVec.ofNat 32 n)

/-- The stack pointer after `n` bytes are pushed. -/
def State.pushed (s : State) (n : Nat) : Word := spAdd s.bigStack s.gpr.esp (0 - BitVec.ofNat 32 n)

/-- A place holds a value after, and no other register and no other byte of memory has changed. -/
def Wrote (s t : State) (sz : Size) (v : BitVec sz.bits) : Place → Prop
  | .reg r => t.gpr = s.gpr.putView sz r v ∧ t.mem = s.mem
  | .mem seg off => t.gpr = s.gpr ∧ Stored s t seg off (toLe sz.bytes v)

/-! ### What an instruction leaves alone -/

/-- Everything but the general registers, EIP, the flags, memory, the caches and the bus record is as before; the memory that
SMIACT# hides and the bus unit too. -/
structure Kept (s t : State) : Prop where
  cpl : t.cpl = s.cpl
  seg : t.seg = s.seg
  sys : t.sys = s.sys
  cr : t.cr = s.cr
  dr : t.dr = s.dr
  msr : t.msr = s.msr
  fpu : t.fpu = s.fpu
  smm : t.smm = s.smm
  intr : t.intr = s.intr
  scr : t.scr = { s.scr with start := s.eip }
  clock : t.clock = s.clock
  pins : t.pins = s.pins
  test : t.test = s.test
  other : t.other = s.other
  biu : t.biu = s.biu
  plat : t.plat = s.plat

/-- Besides `Kept`, EIP moves to the next instruction and the processor drives no special or I/O cycle. -/
structure Frame (s t : State) : Prop extends Kept s t where
  eip : t.eip = s.nextEip
  bus : t.bus = s.bus

/-- An instruction that leaves memory alone: besides `Frame`, every byte reads as before. -/
structure NoStore (s t : State) : Prop extends Frame s t where
  mem : t.mem = s.mem

/-! ### Sane states -/

/-- Memory is in its canonical form, and so is the memory that SMIACT# hides. -/
def State.memOk (s : State) : Bool := s.mem.wf && s.other.wf

/-- The control registers are legal: no reserved bit of CR4, no paging without protection, no NW without CD (R34, R37). -/
def State.crOk (s : State) : Bool := !badCr4 s.cr.cr4 && !badCr0 s.cr.cr0

/-- The states that steps lead to. -/
inductive Reach : State → State → Prop
  | refl (s : State) : Reach s s
  | tail {s t u : State} : Reach s t → step t = .next u → Reach s u

end Sys2Proof.Machine
end

