-- ==== Sys2Proof/Forms.lean ====
section
/-! DEFINITION. The shapes the statements group instructions by: what operation each instruction is, at which size, on
which operands. Nothing here says what an operation does. -/
namespace Sys2Proof.Machine

open Sys2Proof

/-- A source operand: an r/m operand or register, or an immediate already extended to 32 bits (R269). -/
inductive Src
  | rm (rm : RM)
  | imm (v : Word)
  deriving DecidableEq, Repr

/-- The source may be read. -/
def State.maySrc (s : State) (p : Pfx) (sz : Size) : Src → Bool
  | .rm rm => s.mayUse sz false (placeOf p s.gpr rm)
  | .imm _ => true

/-- The value of a source at an operand size. -/
def State.src (s : State) (p : Pfx) (sz : Size) : Src → BitVec sz.bits
  | .rm rm => s.get sz (placeOf p s.gpr rm)
  | .imm v => v.setWidth sz.bits

/-- The two-operand operations of R362 to R370. -/
inductive AluOp
  | add | or | adc | sbb | and | sub | xor | cmp | test
  deriving DecidableEq, Repr

/-- CMP and TEST write nothing (R369, R370). -/
def AluOp.writes : AluOp → Bool
  | .cmp => false
  | .test => false
  | .add => true | .or => true | .adc => true | .sbb => true | .and => true | .sub => true | .xor => true

/-- A two-operand instruction: `dst op src`. -/
structure AluForm where
  op : AluOp
  p : Pfx
  sz : Size
  dst : RM
  src : Src
  deriving DecidableEq, Repr

/-- The two-operand arithmetic and logic instructions (R362 to R370). -/
inductive IsAlu : Instr → AluForm → Prop
  | addEbGb {p rm g} : IsAlu (.addEbGb p rm g) ⟨.add, p, .b, rm, .rm (.reg g)⟩
  | addEvGv {p rm g} : IsAlu (.addEvGv p rm g) ⟨.add, p, p.osz.size, rm, .rm (.reg g)⟩
  | addGbEb {p g rm} : IsAlu (.addGbEb p g rm) ⟨.add, p, .b, .reg g, .rm rm⟩
  | addGvEv {p g rm} : IsAlu (.addGvEv p g rm) ⟨.add, p, p.osz.size, .reg g, .rm rm⟩
  | addAlIb {p imm} : IsAlu (.addAlIb p imm) ⟨.add, p, .b, .reg .eax, .imm (imm.signExtend 32)⟩
  | addEaxIv {p imm} : IsAlu (.addEaxIv p imm) ⟨.add, p, p.osz.size, .reg .eax, .imm imm⟩
  | addEbIb {p rm imm} : IsAlu (.addEbIb p rm imm) ⟨.add, p, .b, rm, .imm (imm.signExtend 32)⟩
  | addEvIv {p rm imm} : IsAlu (.addEvIv p rm imm) ⟨.add, p, p.osz.size, rm, .imm imm⟩
  | addEvIbs {p rm imm} : IsAlu (.addEvIbs p rm imm) ⟨.add, p, p.osz.size, rm, .imm (imm.signExtend 32)⟩
  | orEbGb {p rm g} : IsAlu (.orEbGb p rm g) ⟨.or, p, .b, rm, .rm (.reg g)⟩
  | orEvGv {p rm g} : IsAlu (.orEvGv p rm g) ⟨.or, p, p.osz.size, rm, .rm (.reg g)⟩
  | orGbEb {p g rm} : IsAlu (.orGbEb p g rm) ⟨.or, p, .b, .reg g, .rm rm⟩
  | orGvEv {p g rm} : IsAlu (.orGvEv p g rm) ⟨.or, p, p.osz.size, .reg g, .rm rm⟩
  | orAlIb {p imm} : IsAlu (.orAlIb p imm) ⟨.or, p, .b, .reg .eax, .imm (imm.signExtend 32)⟩
  | orEaxIv {p imm} : IsAlu (.orEaxIv p imm) ⟨.or, p, p.osz.size, .reg .eax, .imm imm⟩
  | orEbIb {p rm imm} : IsAlu (.orEbIb p rm imm) ⟨.or, p, .b, rm, .imm (imm.signExtend 32)⟩
  | orEvIv {p rm imm} : IsAlu (.orEvIv p rm imm) ⟨.or, p, p.osz.size, rm, .imm imm⟩
  | orEvIbs {p rm imm} : IsAlu (.orEvIbs p rm imm) ⟨.or, p, p.osz.size, rm, .imm (imm.signExtend 32)⟩
  | adcEbGb {p rm g} : IsAlu (.adcEbGb p rm g) ⟨.adc, p, .b, rm, .rm (.reg g)⟩
  | adcEvGv {p rm g} : IsAlu (.adcEvGv p rm g) ⟨.adc, p, p.osz.size, rm, .rm (.reg g)⟩
  | adcGbEb {p g rm} : IsAlu (.adcGbEb p g rm) ⟨.adc, p, .b, .reg g, .rm rm⟩
  | adcGvEv {p g rm} : IsAlu (.adcGvEv p g rm) ⟨.adc, p, p.osz.size, .reg g, .rm rm⟩
  | adcAlIb {p imm} : IsAlu (.adcAlIb p imm) ⟨.adc, p, .b, .reg .eax, .imm (imm.signExtend 32)⟩
  | adcEaxIv {p imm} : IsAlu (.adcEaxIv p imm) ⟨.adc, p, p.osz.size, .reg .eax, .imm imm⟩
  | adcEbIb {p rm imm} : IsAlu (.adcEbIb p rm imm) ⟨.adc, p, .b, rm, .imm (imm.signExtend 32)⟩
  | adcEvIv {p rm imm} : IsAlu (.adcEvIv p rm imm) ⟨.adc, p, p.osz.size, rm, .imm imm⟩
  | adcEvIbs {p rm imm} : IsAlu (.adcEvIbs p rm imm) ⟨.adc, p, p.osz.size, rm, .imm (imm.signExtend 32)⟩
  | sbbEbGb {p rm g} : IsAlu (.sbbEbGb p rm g) ⟨.sbb, p, .b, rm, .rm (.reg g)⟩
  | sbbEvGv {p rm g} : IsAlu (.sbbEvGv p rm g) ⟨.sbb, p, p.osz.size, rm, .rm (.reg g)⟩
  | sbbGbEb {p g rm} : IsAlu (.sbbGbEb p g rm) ⟨.sbb, p, .b, .reg g, .rm rm⟩
  | sbbGvEv {p g rm} : IsAlu (.sbbGvEv p g rm) ⟨.sbb, p, p.osz.size, .reg g, .rm rm⟩
  | sbbAlIb {p imm} : IsAlu (.sbbAlIb p imm) ⟨.sbb, p, .b, .reg .eax, .imm (imm.signExtend 32)⟩
  | sbbEaxIv {p imm} : IsAlu (.sbbEaxIv p imm) ⟨.sbb, p, p.osz.size, .reg .eax, .imm imm⟩
  | sbbEbIb {p rm imm} : IsAlu (.sbbEbIb p rm imm) ⟨.sbb, p, .b, rm, .imm (imm.signExtend 32)⟩
  | sbbEvIv {p rm imm} : IsAlu (.sbbEvIv p rm imm) ⟨.sbb, p, p.osz.size, rm, .imm imm⟩
  | sbbEvIbs {p rm imm} : IsAlu (.sbbEvIbs p rm imm) ⟨.sbb, p, p.osz.size, rm, .imm (imm.signExtend 32)⟩
  | andEbGb {p rm g} : IsAlu (.andEbGb p rm g) ⟨.and, p, .b, rm, .rm (.reg g)⟩
  | andEvGv {p rm g} : IsAlu (.andEvGv p rm g) ⟨.and, p, p.osz.size, rm, .rm (.reg g)⟩
  | andGbEb {p g rm} : IsAlu (.andGbEb p g rm) ⟨.and, p, .b, .reg g, .rm rm⟩
  | andGvEv {p g rm} : IsAlu (.andGvEv p g rm) ⟨.and, p, p.osz.size, .reg g, .rm rm⟩
  | andAlIb {p imm} : IsAlu (.andAlIb p imm) ⟨.and, p, .b, .reg .eax, .imm (imm.signExtend 32)⟩
  | andEaxIv {p imm} : IsAlu (.andEaxIv p imm) ⟨.and, p, p.osz.size, .reg .eax, .imm imm⟩
  | andEbIb {p rm imm} : IsAlu (.andEbIb p rm imm) ⟨.and, p, .b, rm, .imm (imm.signExtend 32)⟩
  | andEvIv {p rm imm} : IsAlu (.andEvIv p rm imm) ⟨.and, p, p.osz.size, rm, .imm imm⟩
  | andEvIbs {p rm imm} : IsAlu (.andEvIbs p rm imm) ⟨.and, p, p.osz.size, rm, .imm (imm.signExtend 32)⟩
  | subEbGb {p rm g} : IsAlu (.subEbGb p rm g) ⟨.sub, p, .b, rm, .rm (.reg g)⟩
  | subEvGv {p rm g} : IsAlu (.subEvGv p rm g) ⟨.sub, p, p.osz.size, rm, .rm (.reg g)⟩
  | subGbEb {p g rm} : IsAlu (.subGbEb p g rm) ⟨.sub, p, .b, .reg g, .rm rm⟩
  | subGvEv {p g rm} : IsAlu (.subGvEv p g rm) ⟨.sub, p, p.osz.size, .reg g, .rm rm⟩
  | subAlIb {p imm} : IsAlu (.subAlIb p imm) ⟨.sub, p, .b, .reg .eax, .imm (imm.signExtend 32)⟩
  | subEaxIv {p imm} : IsAlu (.subEaxIv p imm) ⟨.sub, p, p.osz.size, .reg .eax, .imm imm⟩
  | subEbIb {p rm imm} : IsAlu (.subEbIb p rm imm) ⟨.sub, p, .b, rm, .imm (imm.signExtend 32)⟩
  | subEvIv {p rm imm} : IsAlu (.subEvIv p rm imm) ⟨.sub, p, p.osz.size, rm, .imm imm⟩
  | subEvIbs {p rm imm} : IsAlu (.subEvIbs p rm imm) ⟨.sub, p, p.osz.size, rm, .imm (imm.signExtend 32)⟩
  | xorEbGb {p rm g} : IsAlu (.xorEbGb p rm g) ⟨.xor, p, .b, rm, .rm (.reg g)⟩
  | xorEvGv {p rm g} : IsAlu (.xorEvGv p rm g) ⟨.xor, p, p.osz.size, rm, .rm (.reg g)⟩
  | xorGbEb {p g rm} : IsAlu (.xorGbEb p g rm) ⟨.xor, p, .b, .reg g, .rm rm⟩
  | xorGvEv {p g rm} : IsAlu (.xorGvEv p g rm) ⟨.xor, p, p.osz.size, .reg g, .rm rm⟩
  | xorAlIb {p imm} : IsAlu (.xorAlIb p imm) ⟨.xor, p, .b, .reg .eax, .imm (imm.signExtend 32)⟩
  | xorEaxIv {p imm} : IsAlu (.xorEaxIv p imm) ⟨.xor, p, p.osz.size, .reg .eax, .imm imm⟩
  | xorEbIb {p rm imm} : IsAlu (.xorEbIb p rm imm) ⟨.xor, p, .b, rm, .imm (imm.signExtend 32)⟩
  | xorEvIv {p rm imm} : IsAlu (.xorEvIv p rm imm) ⟨.xor, p, p.osz.size, rm, .imm imm⟩
  | xorEvIbs {p rm imm} : IsAlu (.xorEvIbs p rm imm) ⟨.xor, p, p.osz.size, rm, .imm (imm.signExtend 32)⟩
  | cmpEbGb {p rm g} : IsAlu (.cmpEbGb p rm g) ⟨.cmp, p, .b, rm, .rm (.reg g)⟩
  | cmpEvGv {p rm g} : IsAlu (.cmpEvGv p rm g) ⟨.cmp, p, p.osz.size, rm, .rm (.reg g)⟩
  | cmpGbEb {p g rm} : IsAlu (.cmpGbEb p g rm) ⟨.cmp, p, .b, .reg g, .rm rm⟩
  | cmpGvEv {p g rm} : IsAlu (.cmpGvEv p g rm) ⟨.cmp, p, p.osz.size, .reg g, .rm rm⟩
  | cmpAlIb {p imm} : IsAlu (.cmpAlIb p imm) ⟨.cmp, p, .b, .reg .eax, .imm (imm.signExtend 32)⟩
  | cmpEaxIv {p imm} : IsAlu (.cmpEaxIv p imm) ⟨.cmp, p, p.osz.size, .reg .eax, .imm imm⟩
  | cmpEbIb {p rm imm} : IsAlu (.cmpEbIb p rm imm) ⟨.cmp, p, .b, rm, .imm (imm.signExtend 32)⟩
  | cmpEvIv {p rm imm} : IsAlu (.cmpEvIv p rm imm) ⟨.cmp, p, p.osz.size, rm, .imm imm⟩
  | cmpEvIbs {p rm imm} : IsAlu (.cmpEvIbs p rm imm) ⟨.cmp, p, p.osz.size, rm, .imm (imm.signExtend 32)⟩
  | testEbGb {p rm g} : IsAlu (.testEbGb p rm g) ⟨.test, p, .b, rm, .rm (.reg g)⟩
  | testEvGv {p rm g} : IsAlu (.testEvGv p rm g) ⟨.test, p, p.osz.size, rm, .rm (.reg g)⟩
  | testAlIb {p imm} : IsAlu (.testAlIb p imm) ⟨.test, p, .b, .reg .eax, .imm (imm.signExtend 32)⟩
  | testEaxIv {p imm} : IsAlu (.testEaxIv p imm) ⟨.test, p, p.osz.size, .reg .eax, .imm imm⟩
  | testEbIb {p rm imm} : IsAlu (.testEbIb p rm imm) ⟨.test, p, .b, rm, .imm (imm.signExtend 32)⟩
  | testEvIv {p rm imm} : IsAlu (.testEvIv p rm imm) ⟨.test, p, p.osz.size, rm, .imm imm⟩

/-- The one-operand operations of R371 to R374. -/
inductive UnaryOp
  | inc | dec | neg | not
  deriving DecidableEq, Repr

/-- A one-operand instruction. -/
structure UnaryForm where
  op : UnaryOp
  p : Pfx
  sz : Size
  dst : RM
  deriving DecidableEq, Repr

/-- INC, DEC, NEG and NOT (R371 to R374). -/
inductive IsUnary : Instr → UnaryForm → Prop
  | incEb {p rm} : IsUnary (.incEb p rm) ⟨.inc, p, .b, rm⟩
  | incEv {p rm} : IsUnary (.incEv p rm) ⟨.inc, p, p.osz.size, rm⟩
  | incR {p r} : IsUnary (.incR p r) ⟨.inc, p, p.osz.size, .reg r⟩
  | decEb {p rm} : IsUnary (.decEb p rm) ⟨.dec, p, .b, rm⟩
  | decEv {p rm} : IsUnary (.decEv p rm) ⟨.dec, p, p.osz.size, rm⟩
  | decR {p r} : IsUnary (.decR p r) ⟨.dec, p, p.osz.size, .reg r⟩
  | negEb {p rm} : IsUnary (.negEb p rm) ⟨.neg, p, .b, rm⟩
  | negEv {p rm} : IsUnary (.negEv p rm) ⟨.neg, p, p.osz.size, rm⟩
  | notEb {p rm} : IsUnary (.notEb p rm) ⟨.not, p, .b, rm⟩
  | notEv {p rm} : IsUnary (.notEv p rm) ⟨.not, p, p.osz.size, rm⟩

/-- The shifts and rotates of R382 to R386. -/
inductive ShiftKind
  | rol | ror | shl | shr | sar
  deriving DecidableEq, Repr

/-- Where a shift count comes from (R381). -/
inductive Count
  | one
  | imm (v : Byte)
  | cl
  deriving DecidableEq, Repr

/-- The count as the instruction uses it: its low five bits (R381). -/
def State.count (s : State) : Count → Nat
  | .one => 1
  | .imm v => v.toNat % 32
  | .cl => (s.view .b .ecx).toNat % 32

/-- A shift or rotate. -/
structure ShiftForm where
  op : ShiftKind
  p : Pfx
  sz : Size
  dst : RM
  n : Count
  deriving DecidableEq, Repr

/-- ROL, ROR, SHL, SHR and SAR (R382 to R386). -/
inductive IsShift : Instr → ShiftForm → Prop
  | rolEbIb {p rm imm} : IsShift (.rolEbIb p rm imm) ⟨.rol, p, .b, rm, .imm imm⟩
  | rolEb1 {p rm} : IsShift (.rolEb1 p rm) ⟨.rol, p, .b, rm, .one⟩
  | rolEbCl {p rm} : IsShift (.rolEbCl p rm) ⟨.rol, p, .b, rm, .cl⟩
  | rolEvIb {p rm imm} : IsShift (.rolEvIb p rm imm) ⟨.rol, p, p.osz.size, rm, .imm imm⟩
  | rolEv1 {p rm} : IsShift (.rolEv1 p rm) ⟨.rol, p, p.osz.size, rm, .one⟩
  | rolEvCl {p rm} : IsShift (.rolEvCl p rm) ⟨.rol, p, p.osz.size, rm, .cl⟩
  | rorEbIb {p rm imm} : IsShift (.rorEbIb p rm imm) ⟨.ror, p, .b, rm, .imm imm⟩
  | rorEb1 {p rm} : IsShift (.rorEb1 p rm) ⟨.ror, p, .b, rm, .one⟩
  | rorEbCl {p rm} : IsShift (.rorEbCl p rm) ⟨.ror, p, .b, rm, .cl⟩
  | rorEvIb {p rm imm} : IsShift (.rorEvIb p rm imm) ⟨.ror, p, p.osz.size, rm, .imm imm⟩
  | rorEv1 {p rm} : IsShift (.rorEv1 p rm) ⟨.ror, p, p.osz.size, rm, .one⟩
  | rorEvCl {p rm} : IsShift (.rorEvCl p rm) ⟨.ror, p, p.osz.size, rm, .cl⟩
  | shlEbIb {p rm imm} : IsShift (.shlEbIb p rm imm) ⟨.shl, p, .b, rm, .imm imm⟩
  | shlEb1 {p rm} : IsShift (.shlEb1 p rm) ⟨.shl, p, .b, rm, .one⟩
  | shlEbCl {p rm} : IsShift (.shlEbCl p rm) ⟨.shl, p, .b, rm, .cl⟩
  | shlEvIb {p rm imm} : IsShift (.shlEvIb p rm imm) ⟨.shl, p, p.osz.size, rm, .imm imm⟩
  | shlEv1 {p rm} : IsShift (.shlEv1 p rm) ⟨.shl, p, p.osz.size, rm, .one⟩
  | shlEvCl {p rm} : IsShift (.shlEvCl p rm) ⟨.shl, p, p.osz.size, rm, .cl⟩
  | shrEbIb {p rm imm} : IsShift (.shrEbIb p rm imm) ⟨.shr, p, .b, rm, .imm imm⟩
  | shrEb1 {p rm} : IsShift (.shrEb1 p rm) ⟨.shr, p, .b, rm, .one⟩
  | shrEbCl {p rm} : IsShift (.shrEbCl p rm) ⟨.shr, p, .b, rm, .cl⟩
  | shrEvIb {p rm imm} : IsShift (.shrEvIb p rm imm) ⟨.shr, p, p.osz.size, rm, .imm imm⟩
  | shrEv1 {p rm} : IsShift (.shrEv1 p rm) ⟨.shr, p, p.osz.size, rm, .one⟩
  | shrEvCl {p rm} : IsShift (.shrEvCl p rm) ⟨.shr, p, p.osz.size, rm, .cl⟩
  | sarEbIb {p rm imm} : IsShift (.sarEbIb p rm imm) ⟨.sar, p, .b, rm, .imm imm⟩
  | sarEb1 {p rm} : IsShift (.sarEb1 p rm) ⟨.sar, p, .b, rm, .one⟩
  | sarEbCl {p rm} : IsShift (.sarEbCl p rm) ⟨.sar, p, .b, rm, .cl⟩
  | sarEvIb {p rm imm} : IsShift (.sarEvIb p rm imm) ⟨.sar, p, p.osz.size, rm, .imm imm⟩
  | sarEv1 {p rm} : IsShift (.sarEv1 p rm) ⟨.sar, p, p.osz.size, rm, .one⟩
  | sarEvCl {p rm} : IsShift (.sarEvCl p rm) ⟨.sar, p, p.osz.size, rm, .cl⟩

/-- A double shift: to the left for SHLD, to the right for SHRD (R387, R388). -/
structure DoubleForm where
  left : Bool
  p : Pfx
  dst : RM
  g : Reg
  n : Count
  deriving DecidableEq, Repr

/-- SHLD and SHRD (R387, R388). -/
inductive IsDouble : Instr → DoubleForm → Prop
  | shldEvGvIb {p rm g imm} : IsDouble (.shldEvGvIb p rm g imm) ⟨true, p, rm, g, .imm imm⟩
  | shldEvGvCl {p rm g} : IsDouble (.shldEvGvCl p rm g) ⟨true, p, rm, g, .cl⟩
  | shrdEvGvIb {p rm g imm} : IsDouble (.shrdEvGvIb p rm g imm) ⟨false, p, rm, g, .imm imm⟩
  | shrdEvGvCl {p rm g} : IsDouble (.shrdEvGvCl p rm g) ⟨false, p, rm, g, .cl⟩

/-- The bit offset of a bit test (R389). -/
inductive BitOff
  | imm (v : Byte)
  | reg (g : Reg)
  deriving DecidableEq, Repr

/-- A bit test. -/
structure BitForm where
  act : BitAct
  p : Pfx
  dst : RM
  off : BitOff
  deriving DecidableEq, Repr

/-- BT, BTS, BTR and BTC (R390 to R393). -/
inductive IsBit : Instr → BitForm → Prop
  | btEvGv {p rm g} : IsBit (.btEvGv p rm g) ⟨.test, p, rm, .reg g⟩
  | btEvIb {p rm imm} : IsBit (.btEvIb p rm imm) ⟨.test, p, rm, .imm imm⟩
  | btsEvGv {p rm g} : IsBit (.btsEvGv p rm g) ⟨.set, p, rm, .reg g⟩
  | btsEvIb {p rm imm} : IsBit (.btsEvIb p rm imm) ⟨.set, p, rm, .imm imm⟩
  | btrEvGv {p rm g} : IsBit (.btrEvGv p rm g) ⟨.reset, p, rm, .reg g⟩
  | btrEvIb {p rm imm} : IsBit (.btrEvIb p rm imm) ⟨.reset, p, rm, .imm imm⟩
  | btcEvGv {p rm g} : IsBit (.btcEvGv p rm g) ⟨.complement, p, rm, .reg g⟩
  | btcEvIb {p rm imm} : IsBit (.btcEvIb p rm imm) ⟨.complement, p, rm, .imm imm⟩

/-- A source and a destination register: BSF and BSR, MUL and the like. -/
structure RmForm where
  p : Pfx
  sz : Size
  src : RM
  deriving DecidableEq, Repr

/-- A move between an r/m operand or an absolute offset and a register, or of an immediate (R420 to R422). -/
inductive Loc
  | rm (rm : RM)
  | moffs (off : Word)
  deriving DecidableEq, Repr

/-- The place a location names: an absolute offset lies in DS or the override, at the address size (R268, R269). -/
def locPlace (p : Pfx) (g : Gpr) : Loc → Place
  | .rm rm => placeOf p g rm
  | .moffs off => .mem (moffsSeg p) (moffs p off)

/-- The source of a move. -/
inductive MoveSrc
  | loc (l : Loc)
  | imm (v : Word)
  deriving DecidableEq, Repr

/-- A move. -/
structure MoveForm where
  p : Pfx
  sz : Size
  dst : Loc
  src : MoveSrc
  deriving DecidableEq, Repr

/-- The source of a move may be read. -/
def State.mayMove (s : State) (p : Pfx) (sz : Size) : MoveSrc → Bool
  | .loc l => s.mayUse sz false (locPlace p s.gpr l)
  | .imm _ => true

/-- The value a move moves. -/
def State.moved (s : State) (p : Pfx) (sz : Size) : MoveSrc → BitVec sz.bits
  | .loc l => s.get sz (locPlace p s.gpr l)
  | .imm v => v.setWidth sz.bits

/-- MUL of the accumulator (R375). -/
inductive IsMul : Instr → RmForm → Prop
  | mulEb {p rm} : IsMul (.mulEb p rm) ⟨p, .b, rm⟩
  | mulEv {p rm} : IsMul (.mulEv p rm) ⟨p, p.osz.size, rm⟩

/-- IMUL of the accumulator (R376). -/
inductive IsImul : Instr → RmForm → Prop
  | imulEb {p rm} : IsImul (.imulEb p rm) ⟨p, .b, rm⟩
  | imulEv {p rm} : IsImul (.imulEv p rm) ⟨p, p.osz.size, rm⟩

/-- DIV (R378). -/
inductive IsDiv : Instr → RmForm → Prop
  | divEb {p rm} : IsDiv (.divEb p rm) ⟨p, .b, rm⟩
  | divEv {p rm} : IsDiv (.divEv p rm) ⟨p, p.osz.size, rm⟩

/-- IDIV (R379). -/
inductive IsIdiv : Instr → RmForm → Prop
  | idivEb {p rm} : IsIdiv (.idivEb p rm) ⟨p, .b, rm⟩
  | idivEv {p rm} : IsIdiv (.idivEv p rm) ⟨p, p.osz.size, rm⟩

/-- MOV between registers and memory, and of immediates (R420 to R422). -/
inductive IsMove : Instr → MoveForm → Prop
  | movEbGb {p rm g} : IsMove (.movEbGb p rm g) ⟨p, .b, .rm rm, .loc (.rm (.reg g))⟩
  | movEvGv {p rm g} : IsMove (.movEvGv p rm g) ⟨p, p.osz.size, .rm rm, .loc (.rm (.reg g))⟩
  | movGbEb {p g rm} : IsMove (.movGbEb p g rm) ⟨p, .b, .rm (.reg g), .loc (.rm rm)⟩
  | movGvEv {p g rm} : IsMove (.movGvEv p g rm) ⟨p, p.osz.size, .rm (.reg g), .loc (.rm rm)⟩
  | movAlMoffs {p imm} : IsMove (.movAlMoffs p imm) ⟨p, .b, .rm (.reg .eax), .loc (.moffs imm)⟩
  | movEaxMoffs {p imm} : IsMove (.movEaxMoffs p imm) ⟨p, p.osz.size, .rm (.reg .eax), .loc (.moffs imm)⟩
  | movMoffsAl {p imm} : IsMove (.movMoffsAl p imm) ⟨p, .b, .moffs imm, .loc (.rm (.reg .eax))⟩
  | movMoffsEax {p imm} : IsMove (.movMoffsEax p imm) ⟨p, p.osz.size, .moffs imm, .loc (.rm (.reg .eax))⟩
  | movEbIb {p rm imm} : IsMove (.movEbIb p rm imm) ⟨p, .b, .rm rm, .imm (imm.signExtend 32)⟩
  | movEvIv {p rm imm} : IsMove (.movEvIv p rm imm) ⟨p, p.osz.size, .rm rm, .imm imm⟩
  | movR8Ib {p r imm} : IsMove (.movR8Ib p r imm) ⟨p, .b, .rm (.reg r), .imm (imm.signExtend 32)⟩
  | movRIv {p r imm} : IsMove (.movRIv p r imm) ⟨p, p.osz.size, .rm (.reg r), .imm imm⟩

/-- A two-operand IMUL, or a three-operand one with its immediate (R377). -/
structure ImulForm where
  p : Pfx
  g : Reg
  rm : RM
  imm : Option Word
  deriving DecidableEq, Repr

/-- The multiplier. -/
def State.factor (s : State) (f : ImulForm) : BitVec f.p.osz.size.bits :=
  match f.imm with
  | none => s.view f.p.osz.size f.g
  | some v => v.setWidth f.p.osz.size.bits

/-- IMUL into a register (R377). -/
inductive IsImulTo : Instr → ImulForm → Prop
  | imulGvEv {p g rm} : IsImulTo (.imulGvEv p g rm) ⟨p, g, rm, none⟩
  | imulGvEvIv {p g rm imm} : IsImulTo (.imulGvEvIv p g rm imm) ⟨p, g, rm, some imm⟩
  | imulGvEvIbs {p g rm imm} : IsImulTo (.imulGvEvIbs p g rm imm) ⟨p, g, rm, some (imm.signExtend 32)⟩

/-- MOVZX and MOVSX: sign-extending or not, the source size, the destination register (R425, R426). -/
structure ExtendForm where
  signed : Bool
  p : Pfx
  src : Size
  g : Reg
  rm : RM
  deriving DecidableEq, Repr

/-- MOVZX and MOVSX (R425, R426). -/
inductive IsExtend : Instr → ExtendForm → Prop
  | movzxGvEb {p g rm} : IsExtend (.movzxGvEb p g rm) ⟨false, p, .b, g, rm⟩
  | movzxGvEw {p g rm} : IsExtend (.movzxGvEw p g rm) ⟨false, p, .w, g, rm⟩
  | movsxGvEb {p g rm} : IsExtend (.movsxGvEb p g rm) ⟨true, p, .b, g, rm⟩
  | movsxGvEw {p g rm} : IsExtend (.movsxGvEw p g rm) ⟨true, p, .w, g, rm⟩

/-- An exchange of an operand with a register (R427). -/
structure XchgForm where
  p : Pfx
  sz : Size
  rm : RM
  g : Reg
  deriving DecidableEq, Repr

/-- XCHG (R427). -/
inductive IsXchg : Instr → XchgForm → Prop
  | xchgEbGb {p rm g} : IsXchg (.xchgEbGb p rm g) ⟨p, .b, rm, g⟩
  | xchgEvGv {p rm g} : IsXchg (.xchgEvGv p rm g) ⟨p, p.osz.size, rm, g⟩
  | xchgEaxR {p r} : IsXchg (.xchgEaxR p r) ⟨p, p.osz.size, .reg .eax, r⟩

/-- A push: what is pushed, at the operand size (R441). -/
structure PushForm where
  p : Pfx
  src : Src
  deriving DecidableEq, Repr

/-- PUSH (R441). -/
inductive IsPush : Instr → PushForm → Prop
  | pushR {p r} : IsPush (.pushR p r) ⟨p, .rm (.reg r)⟩
  | pushEv {p rm} : IsPush (.pushEv p rm) ⟨p, .rm rm⟩
  | pushIv {p imm} : IsPush (.pushIv p imm) ⟨p, .imm imm⟩
  | pushIbs {p imm} : IsPush (.pushIbs p imm) ⟨p, .imm (imm.signExtend 32)⟩

/-- POP into a register or memory (R442). -/
inductive IsPop : Instr → (Pfx × RM) → Prop
  | popR {p r} : IsPop (.popR p r) (p, .reg r)
  | popEv {p rm} : IsPop (.popEv p rm) (p, rm)

/-- The target of a near transfer (R450). -/
inductive Target
  | rel8 (d : Byte)
  | relv (d : Word)
  | ind (rm : RM)
  deriving DecidableEq, Repr

/-- The target may be read. -/
def State.mayTarget (s : State) (p : Pfx) : Target → Bool
  | .rel8 _ => true
  | .relv _ => true
  | .ind rm => s.mayUse p.osz.size false (placeOf p s.gpr rm)

/-- The address a target names: relative to the next instruction, or as read, and cut to the operand size (R450). -/
def State.target (s : State) (p : Pfx) (t : Target) : Word :=
  truncTarget p.osz
    (match t with
      | .rel8 d => s.nextEip + d.signExtend 32
      | .relv d => s.nextEip + (match p.osz with | .o16 => (d.extractLsb' 0 16).signExtend 32 | .o32 => d)
      | .ind rm => (s.get p.osz.size (placeOf p s.gpr rm)).setWidth 32)

/-- JMP near (R451, R452). -/
inductive IsJump : Instr → (Pfx × Target) → Prop
  | jmpRel8 {p imm} : IsJump (.jmpRel8 p imm) (p, .rel8 imm)
  | jmpRelv {p imm} : IsJump (.jmpRelv p imm) (p, .relv imm)
  | jmpEv {p rm} : IsJump (.jmpEv p rm) (p, .ind rm)

/-- CALL near (R456, R457). -/
inductive IsCall : Instr → (Pfx × Target) → Prop
  | callRelv {p imm} : IsCall (.callRelv p imm) (p, .relv imm)
  | callEv {p rm} : IsCall (.callEv p rm) (p, .ind rm)

/-- A conditional transfer: its displacement, what it tests, and whether it counts in CX or ECX. -/
inductive Branch
  | cond (cc : Cond)
  | cxz
  | loop
  | loope
  | loopne
  deriving DecidableEq, Repr

/-- A conditional transfer with its displacement. -/
structure BranchForm where
  p : Pfx
  kind : Branch
  to_ : Target
  deriving DecidableEq, Repr

/-- Jcc, JCXZ and the loops (R453 to R455). -/
inductive IsBranch : Instr → BranchForm → Prop
  | jccRel8 {p cc imm} : IsBranch (.jccRel8 p cc imm) ⟨p, .cond cc, .rel8 imm⟩
  | jccRelv {p cc imm} : IsBranch (.jccRelv p cc imm) ⟨p, .cond cc, .relv imm⟩
  | jcxzRel8 {p imm} : IsBranch (.jcxzRel8 p imm) ⟨p, .cxz, .rel8 imm⟩
  | loopRel8 {p imm} : IsBranch (.loopRel8 p imm) ⟨p, .loop, .rel8 imm⟩
  | loopeRel8 {p imm} : IsBranch (.loopeRel8 p imm) ⟨p, .loope, .rel8 imm⟩
  | loopneRel8 {p imm} : IsBranch (.loopneRel8 p imm) ⟨p, .loopne, .rel8 imm⟩

/-- RET near, with the bytes it drops (R458). -/
inductive IsRet : Instr → (Pfx × Nat) → Prop
  | ret {p} : IsRet (.ret p) (p, 0)
  | retIw {p imm} : IsRet (.retIw p imm) (p, imm.toNat)

/-- A port number: in the instruction or in DX (R485, R487). -/
inductive Port
  | imm (v : Byte)
  | dx
  deriving DecidableEq, Repr

/-- The port. -/
def State.port (s : State) : Port → Half
  | .imm v => v.setWidth 16
  | .dx => s.view .w .edx

/-- IN (R485). -/
inductive IsIn : Instr → (Size × Port) → Prop
  | inAlIb {p imm} : IsIn (.inAlIb p imm) (.b, .imm imm)
  | inEaxIb {p imm} : IsIn (.inEaxIb p imm) (p.osz.size, .imm imm)
  | inAlDx {p} : IsIn (.inAlDx p) (.b, .dx)
  | inEaxDx {p} : IsIn (.inEaxDx p) (p.osz.size, .dx)

/-- OUT (R487). -/
inductive IsOut : Instr → (Size × Port) → Prop
  | outIbAl {p imm} : IsOut (.outIbAl p imm) (.b, .imm imm)
  | outIbEax {p imm} : IsOut (.outIbEax p imm) (p.osz.size, .imm imm)
  | outDxAl {p} : IsOut (.outDxAl p) (.b, .dx)
  | outDxEax {p} : IsOut (.outDxEax p) (p.osz.size, .dx)

/-- The control registers that can be moved (R33, R35, R36, R37). -/
inductive CrName
  | cr0 | cr2 | cr3 | cr4
  deriving DecidableEq, Repr

/-- A control register by name. -/
def CtrlRegs.named (c : CtrlRegs) : CrName → Word
  | .cr0 => c.cr0 | .cr2 => c.cr2 | .cr3 => c.cr3 | .cr4 => c.cr4

/-- MOV from a control register (R491, R492, R494, R305). -/
inductive IsReadCr : Instr → (Reg × CrName) → Prop
  | movRCr0 {p r} : IsReadCr (.movRCr0 p r) (r, .cr0)
  | movRCr2 {p r} : IsReadCr (.movRCr2 p r) (r, .cr2)
  | movRCr3 {p r} : IsReadCr (.movRCr3 p r) (r, .cr3)
  | movRCr4 {p r} : IsReadCr (.movRCr4 p r) (r, .cr4)

/-- MOV to a control register (R490, R492, R493, R304). -/
inductive IsWriteCr : Instr → (CrName × Reg) → Prop
  | movCr0R {p r} : IsWriteCr (.movCr0R p r) (.cr0, r)
  | movCr2R {p r} : IsWriteCr (.movCr2R p r) (.cr2, r)
  | movCr3R {p r} : IsWriteCr (.movCr3R p r) (.cr3, r)
  | movCr4R {p r} : IsWriteCr (.movCr4R p r) (.cr4, r)


/-! ### Floating point -/

/-- The x87 instructions on the register stack alone; the flag tells the ones that round by PC (R531). -/
inductive IsFpReg : Instr → Bool → Prop
  | fabs {p} : IsFpReg (.fabs p) false
  | fchs {p} : IsFpReg (.fchs p) false
  | fcompp {p} : IsFpReg (.fcompp p) false
  | fdecstp {p} : IsFpReg (.fdecstp p) false
  | fnop {p} : IsFpReg (.fnop p) false
  | frndint {p} : IsFpReg (.frndint p) false
  | fscale {p} : IsFpReg (.fscale p) false
  | ftst {p} : IsFpReg (.ftst p) false
  | fucompp {p} : IsFpReg (.fucompp p) false
  | fxam {p} : IsFpReg (.fxam p) false
  | fxtract {p} : IsFpReg (.fxtract p) false
  | faddStSti {p i} : IsFpReg (.faddStSti p i) true
  | faddStiSt {p i} : IsFpReg (.faddStiSt p i) true
  | faddpStiSt {p i} : IsFpReg (.faddpStiSt p i) true
  | fcomSti {p i} : IsFpReg (.fcomSti p i) false
  | fcompSti {p i} : IsFpReg (.fcompSti p i) false
  | fldSti {p i} : IsFpReg (.fldSti p i) false
  | fmulStSti {p i} : IsFpReg (.fmulStSti p i) true
  | fmulStiSt {p i} : IsFpReg (.fmulStiSt p i) true
  | fmulpStiSt {p i} : IsFpReg (.fmulpStiSt p i) true
  | fstSti {p i} : IsFpReg (.fstSti p i) false
  | fstpSti {p i} : IsFpReg (.fstpSti p i) false
  | fsubStSti {p i} : IsFpReg (.fsubStSti p i) true
  | fsubStiSt {p i} : IsFpReg (.fsubStiSt p i) true
  | fsubpStiSt {p i} : IsFpReg (.fsubpStiSt p i) true
  | fsubrStSti {p i} : IsFpReg (.fsubrStSti p i) true
  | fsubrStiSt {p i} : IsFpReg (.fsubrStiSt p i) true
  | fsubrpStiSt {p i} : IsFpReg (.fsubrpStiSt p i) true
  | fucomSti {p i} : IsFpReg (.fucomSti p i) false
  | fucompSti {p i} : IsFpReg (.fucompSti p i) false
  | fxchSti {p i} : IsFpReg (.fxchSti p i) false

/-- The memory operand of an x87 instruction: how many bytes, and their natural alignment (R617). -/
structure FpMemForm where
  p : Pfx
  m : MemOp
  n : Nat
  al : Nat
  deriving DecidableEq, Repr

/-- The x87 instructions that read memory; the flag tells the ones that round by PC. -/
inductive IsFpRead : Instr → FpMemForm → Bool → Prop
  | faddM32 {p m} : IsFpRead (.faddM32 p m) ⟨p, m, 4, 4⟩ true
  | faddM64 {p m} : IsFpRead (.faddM64 p m) ⟨p, m, 8, 8⟩ true
  | fcomM32 {p m} : IsFpRead (.fcomM32 p m) ⟨p, m, 4, 4⟩ false
  | fcomM64 {p m} : IsFpRead (.fcomM64 p m) ⟨p, m, 8, 8⟩ false
  | fcompM32 {p m} : IsFpRead (.fcompM32 p m) ⟨p, m, 4, 4⟩ false
  | fcompM64 {p m} : IsFpRead (.fcompM64 p m) ⟨p, m, 8, 8⟩ false
  | fiaddM16 {p m} : IsFpRead (.fiaddM16 p m) ⟨p, m, 2, 2⟩ true
  | fiaddM32 {p m} : IsFpRead (.fiaddM32 p m) ⟨p, m, 4, 4⟩ true
  | ficomM16 {p m} : IsFpRead (.ficomM16 p m) ⟨p, m, 2, 2⟩ false
  | ficomM32 {p m} : IsFpRead (.ficomM32 p m) ⟨p, m, 4, 4⟩ false
  | ficompM16 {p m} : IsFpRead (.ficompM16 p m) ⟨p, m, 2, 2⟩ false
  | ficompM32 {p m} : IsFpRead (.ficompM32 p m) ⟨p, m, 4, 4⟩ false
  | fildM16 {p m} : IsFpRead (.fildM16 p m) ⟨p, m, 2, 2⟩ false
  | fildM32 {p m} : IsFpRead (.fildM32 p m) ⟨p, m, 4, 4⟩ false
  | fildM64 {p m} : IsFpRead (.fildM64 p m) ⟨p, m, 8, 8⟩ false
  | fimulM16 {p m} : IsFpRead (.fimulM16 p m) ⟨p, m, 2, 2⟩ true
  | fimulM32 {p m} : IsFpRead (.fimulM32 p m) ⟨p, m, 4, 4⟩ true
  | fisubM16 {p m} : IsFpRead (.fisubM16 p m) ⟨p, m, 2, 2⟩ true
  | fisubM32 {p m} : IsFpRead (.fisubM32 p m) ⟨p, m, 4, 4⟩ true
  | fisubrM16 {p m} : IsFpRead (.fisubrM16 p m) ⟨p, m, 2, 2⟩ true
  | fisubrM32 {p m} : IsFpRead (.fisubrM32 p m) ⟨p, m, 4, 4⟩ true
  | fldM32 {p m} : IsFpRead (.fldM32 p m) ⟨p, m, 4, 4⟩ false
  | fldM64 {p m} : IsFpRead (.fldM64 p m) ⟨p, m, 8, 8⟩ false
  | fldM80 {p m} : IsFpRead (.fldM80 p m) ⟨p, m, 10, 8⟩ false
  | fmulM32 {p m} : IsFpRead (.fmulM32 p m) ⟨p, m, 4, 4⟩ true
  | fmulM64 {p m} : IsFpRead (.fmulM64 p m) ⟨p, m, 8, 8⟩ true
  | fsubM32 {p m} : IsFpRead (.fsubM32 p m) ⟨p, m, 4, 4⟩ true
  | fsubM64 {p m} : IsFpRead (.fsubM64 p m) ⟨p, m, 8, 8⟩ true
  | fsubrM32 {p m} : IsFpRead (.fsubrM32 p m) ⟨p, m, 4, 4⟩ true
  | fsubrM64 {p m} : IsFpRead (.fsubrM64 p m) ⟨p, m, 8, 8⟩ true

/-- The x87 instructions that write memory (R541, R542, R544, R545). -/
inductive IsFpWrite : Instr → FpMemForm → Prop
  | fistM16 {p m} : IsFpWrite (.fistM16 p m) ⟨p, m, 2, 2⟩
  | fistM32 {p m} : IsFpWrite (.fistM32 p m) ⟨p, m, 4, 4⟩
  | fistpM16 {p m} : IsFpWrite (.fistpM16 p m) ⟨p, m, 2, 2⟩
  | fistpM32 {p m} : IsFpWrite (.fistpM32 p m) ⟨p, m, 4, 4⟩
  | fistpM64 {p m} : IsFpWrite (.fistpM64 p m) ⟨p, m, 8, 8⟩
  | fstM32 {p m} : IsFpWrite (.fstM32 p m) ⟨p, m, 4, 4⟩
  | fstM64 {p m} : IsFpWrite (.fstM64 p m) ⟨p, m, 8, 8⟩
  | fstpM32 {p m} : IsFpWrite (.fstpM32 p m) ⟨p, m, 4, 4⟩
  | fstpM64 {p m} : IsFpWrite (.fstpM64 p m) ⟨p, m, 8, 8⟩
  | fstpM80 {p m} : IsFpWrite (.fstpM80 p m) ⟨p, m, 10, 8⟩

/-- The second operand of an x87 operation: a register, a real or an integer in memory, or zero (R547, R549, R567). -/
inductive FpSource
  | st (i : BitVec 3)
  | single (p : Pfx) (m : MemOp)
  | double (p : Pfx) (m : MemOp)
  | int (n : Nat) (p : Pfx) (m : MemOp)
  | zero
  deriving DecidableEq, Repr

/-- The operand is there to be read: a register that is not empty, memory that may be read. -/
def State.mayFp (s : State) : FpSource → Bool
  | .st i => !s.fpu.empty i
  | .single p m => s.may (segFor p m) (effAddr m s.gpr) 4 4 false
  | .double p m => s.may (segFor p m) (effAddr m s.gpr) 8 8 false
  | .int n p m => s.may (segFor p m) (effAddr m s.gpr) n n false
  | .zero => true

/-- An x87 arithmetic instruction: `ST(dst) op source`, with or without a pop. -/
structure FpArithForm where
  op : FpArith
  dst : BitVec 3
  src : FpSource
  pop : Bool
  deriving DecidableEq, Repr

/-- FADD, FSUB, FSUBR, FMUL and their P and I forms (R547 to R558). -/
inductive IsFpArith : Instr → FpArithForm → Prop
  | faddStSti {p i} : IsFpArith (.faddStSti p i) ⟨.add, 0, .st i, false⟩
  | faddStiSt {p i} : IsFpArith (.faddStiSt p i) ⟨.add, i, .st 0, false⟩
  | faddpStiSt {p i} : IsFpArith (.faddpStiSt p i) ⟨.add, i, .st 0, true⟩
  | fmulStSti {p i} : IsFpArith (.fmulStSti p i) ⟨.mul, 0, .st i, false⟩
  | fmulStiSt {p i} : IsFpArith (.fmulStiSt p i) ⟨.mul, i, .st 0, false⟩
  | fmulpStiSt {p i} : IsFpArith (.fmulpStiSt p i) ⟨.mul, i, .st 0, true⟩
  | fsubStSti {p i} : IsFpArith (.fsubStSti p i) ⟨.sub, 0, .st i, false⟩
  | fsubStiSt {p i} : IsFpArith (.fsubStiSt p i) ⟨.sub, i, .st 0, false⟩
  | fsubpStiSt {p i} : IsFpArith (.fsubpStiSt p i) ⟨.sub, i, .st 0, true⟩
  | fsubrStSti {p i} : IsFpArith (.fsubrStSti p i) ⟨.subr, 0, .st i, false⟩
  | fsubrStiSt {p i} : IsFpArith (.fsubrStiSt p i) ⟨.subr, i, .st 0, false⟩
  | fsubrpStiSt {p i} : IsFpArith (.fsubrpStiSt p i) ⟨.subr, i, .st 0, true⟩
  | faddM32 {p m} : IsFpArith (.faddM32 p m) ⟨.add, 0, .single p m, false⟩
  | faddM64 {p m} : IsFpArith (.faddM64 p m) ⟨.add, 0, .double p m, false⟩
  | fiaddM16 {p m} : IsFpArith (.fiaddM16 p m) ⟨.add, 0, .int 2 p m, false⟩
  | fiaddM32 {p m} : IsFpArith (.fiaddM32 p m) ⟨.add, 0, .int 4 p m, false⟩
  | fimulM16 {p m} : IsFpArith (.fimulM16 p m) ⟨.mul, 0, .int 2 p m, false⟩
  | fimulM32 {p m} : IsFpArith (.fimulM32 p m) ⟨.mul, 0, .int 4 p m, false⟩
  | fisubM16 {p m} : IsFpArith (.fisubM16 p m) ⟨.sub, 0, .int 2 p m, false⟩
  | fisubM32 {p m} : IsFpArith (.fisubM32 p m) ⟨.sub, 0, .int 4 p m, false⟩
  | fisubrM16 {p m} : IsFpArith (.fisubrM16 p m) ⟨.subr, 0, .int 2 p m, false⟩
  | fisubrM32 {p m} : IsFpArith (.fisubrM32 p m) ⟨.subr, 0, .int 4 p m, false⟩
  | fmulM32 {p m} : IsFpArith (.fmulM32 p m) ⟨.mul, 0, .single p m, false⟩
  | fmulM64 {p m} : IsFpArith (.fmulM64 p m) ⟨.mul, 0, .double p m, false⟩
  | fsubM32 {p m} : IsFpArith (.fsubM32 p m) ⟨.sub, 0, .single p m, false⟩
  | fsubM64 {p m} : IsFpArith (.fsubM64 p m) ⟨.sub, 0, .double p m, false⟩
  | fsubrM32 {p m} : IsFpArith (.fsubrM32 p m) ⟨.subr, 0, .single p m, false⟩
  | fsubrM64 {p m} : IsFpArith (.fsubrM64 p m) ⟨.subr, 0, .double p m, false⟩

/-- An x87 comparison of ST(0): whether a quiet NaN passes, and how many pops follow. -/
structure FpCompareForm where
  src : FpSource
  quiet : Bool
  pops : Pops
  deriving DecidableEq, Repr

/-- FCOM, FUCOM, FICOM, their P and PP forms, and FTST (R559 to R567). -/
inductive IsFpCompare : Instr → FpCompareForm → Prop
  | fcompp {p} : IsFpCompare (.fcompp p) ⟨.st 1, false, .two⟩
  | ftst {p} : IsFpCompare (.ftst p) ⟨.zero, false, .zero⟩
  | fucompp {p} : IsFpCompare (.fucompp p) ⟨.st 1, true, .two⟩
  | fcomSti {p i} : IsFpCompare (.fcomSti p i) ⟨.st i, false, .zero⟩
  | fcompSti {p i} : IsFpCompare (.fcompSti p i) ⟨.st i, false, .one⟩
  | fucomSti {p i} : IsFpCompare (.fucomSti p i) ⟨.st i, true, .zero⟩
  | fucompSti {p i} : IsFpCompare (.fucompSti p i) ⟨.st i, true, .one⟩
  | fcomM32 {p m} : IsFpCompare (.fcomM32 p m) ⟨.single p m, false, .zero⟩
  | fcomM64 {p m} : IsFpCompare (.fcomM64 p m) ⟨.double p m, false, .zero⟩
  | fcompM32 {p m} : IsFpCompare (.fcompM32 p m) ⟨.single p m, false, .one⟩
  | fcompM64 {p m} : IsFpCompare (.fcompM64 p m) ⟨.double p m, false, .one⟩
  | ficomM16 {p m} : IsFpCompare (.ficomM16 p m) ⟨.int 2 p m, false, .zero⟩
  | ficomM32 {p m} : IsFpCompare (.ficomM32 p m) ⟨.int 4 p m, false, .zero⟩
  | ficompM16 {p m} : IsFpCompare (.ficompM16 p m) ⟨.int 2 p m, false, .one⟩
  | ficompM32 {p m} : IsFpCompare (.ficompM32 p m) ⟨.int 4 p m, false, .one⟩

end Sys2Proof.Machine
end

