-- ==== Sys2Proof/Certificates/Slice0/Obligations.lean ====
section
/-! DEFINITION. The statements for the provers. -/
namespace Sys2Proof.Machine

open Sys2Proof

/-! ### Words the statements share -/

/-- The six status flags are as given after an instruction, one that is undefined being whatever it is; the other flags
are as before. -/
def FlagsTo (old new : Flags) (cf pf af zf sf of : Option Bool) : Prop :=
  new = { old with cf := cf.getD new.cf, pf := pf.getD new.pf, af := af.getD new.af, zf := zf.getD new.zf,
                   sf := sf.getD new.sf, of := of.getD new.of }

/-- The low byte has an even number of 1 bits. -/
def evenOnes {w : Nat} (r : BitVec w) : Bool := (List.range 8).countP (r.getLsbD ·) % 2 == 0

/-- Flags after a sum: carries of the whole and of the low four bits, and whether the signed sum fits. -/
def sumFlags {w : Nat} (old new : Flags) (x y : BitVec w) (c : Bool) (r : BitVec w) : Prop :=
  FlagsTo old new (some (decide (2 ^ w ≤ x.toNat + y.toNat + c.toNat))) (some (evenOnes r))
    (some (decide (16 ≤ x.toNat % 16 + y.toNat % 16 + c.toNat))) (some (decide (r = 0))) (some r.msb)
    (some (decide (r.toInt ≠ x.toInt + y.toInt + c.toNat)))

/-- Flags after a difference: borrows of the whole and of the low four bits, and whether the signed difference fits. -/
def diffFlags {w : Nat} (old new : Flags) (x y : BitVec w) (c : Bool) (r : BitVec w) : Prop :=
  FlagsTo old new (some (decide (x.toNat < y.toNat + c.toNat))) (some (evenOnes r))
    (some (decide (x.toNat % 16 < y.toNat % 16 + c.toNat))) (some (decide (r = 0))) (some r.msb)
    (some (decide (r.toInt ≠ x.toInt - y.toInt - c.toNat)))

/-- Flags after a logical operation: AF undefined. -/
def bitwiseFlags {w : Nat} (old new : Flags) (r : BitVec w) : Prop :=
  FlagsTo old new (some false) (some (evenOnes r)) none (some (decide (r = 0))) (some r.msb) (some false)

/-- The record of events after bus cycles that are not memory accesses, oldest first. -/
def afterCycles (old : List CacheEvent) (es : List BusEvent) : List CacheEvent :=
  es.foldl (fun l e => e.cycles.foldl (fun l c => .cycle c :: l) l) old

/-- The caches after a serializing instruction that changes nothing else in them (R151). -/
def afterSerial (c : Caches) : Caches := { c with prefetch := [], marks := [], events := .serial :: c.events }

/-- Every byte of memory reads as before. -/
def SameBytes (s t : State) : Prop := ∀ a, t.mem.read a = s.mem.read a

/-! ### Two operands -/

/-- The result of a two-operand operation. -/
def AluOp.value {w : Nat} (op : AluOp) (x y : BitVec w) (c : Bool) : BitVec w :=
  match op with
  | .add => x + y
  | .or => x ||| y
  | .adc => x + y + BitVec.ofNat w c.toNat
  | .sbb => x - y - BitVec.ofNat w c.toNat
  | .and => x &&& y
  | .sub => x - y
  | .xor => x ^^^ y
  | .cmp => x - y
  | .test => x &&& y

/-- The flags a two-operand operation leaves. -/
def AluOp.flagsOk {w : Nat} (op : AluOp) (old new : Flags) (x y : BitVec w) (r : BitVec w) : Prop :=
  match op with
  | .add => sumFlags old new x y false r
  | .or => bitwiseFlags old new r
  | .adc => sumFlags old new x y old.cf r
  | .sbb => diffFlags old new x y old.cf r
  | .and => bitwiseFlags old new r
  | .sub => diffFlags old new x y false r
  | .xor => bitwiseFlags old new r
  | .cmp => diffFlags old new x y false r
  | .test => bitwiseFlags old new r

end Sys2Proof.Machine

open Sys2Proof Sys2Proof.Machine

/-- ADD, OR, ADC, SBB, AND, SUB, XOR, CMP and TEST complete in every form: the destination gets the result, the flags are
those of the operation, and nothing else changes (R360 to R370). -/
def Obligations.AluResult : Prop :=
  ∀ (i : Instr) (f : AluForm) (s : State), IsAlu i f → s.flat = true →
    s.mayUse f.sz f.op.writes (placeOf f.p s.gpr f.dst) = true → s.maySrc f.p f.sz f.src = true →
    ∃ t, exec i s = .next t ∧ Frame s t ∧
      f.op.flagsOk s.flags t.flags (s.get f.sz (placeOf f.p s.gpr f.dst)) (s.src f.p f.sz f.src)
        (f.op.value (s.get f.sz (placeOf f.p s.gpr f.dst)) (s.src f.p f.sz f.src) s.flags.cf) ∧
      if f.op.writes then
        Wrote s t f.sz (f.op.value (s.get f.sz (placeOf f.p s.gpr f.dst)) (s.src f.p f.sz f.src) s.flags.cf)
          (placeOf f.p s.gpr f.dst)
      else t.gpr = s.gpr ∧ t.mem = s.mem

namespace Sys2Proof.Machine

/-! ### One operand -/

/-- The result of a one-operand operation. -/
def UnaryOp.value {w : Nat} (op : UnaryOp) (x : BitVec w) : BitVec w :=
  match op with
  | .inc => x + 1
  | .dec => x - 1
  | .neg => -x
  | .not => ~~~x

/-- The flags a one-operand operation leaves: INC and DEC those of a sum and a difference but for CF, NOT none. -/
def UnaryOp.flagsOk {w : Nat} (op : UnaryOp) (old new : Flags) (x r : BitVec w) : Prop :=
  match op with
  | .inc => new.cf = old.cf ∧ ∃ c, sumFlags old { new with cf := c } x 1 false r
  | .dec => new.cf = old.cf ∧ ∃ c, diffFlags old { new with cf := c } x 1 false r
  | .neg => diffFlags old new 0 x false r
  | .not => new = old

end Sys2Proof.Machine

/-- INC, DEC, NEG and NOT complete in every form (R371 to R374). -/
def Obligations.UnaryResult : Prop :=
  ∀ (i : Instr) (f : UnaryForm) (s : State), IsUnary i f → s.flat = true →
    s.mayUse f.sz true (placeOf f.p s.gpr f.dst) = true →
    ∃ t, exec i s = .next t ∧ Frame s t ∧
      f.op.flagsOk s.flags t.flags (s.get f.sz (placeOf f.p s.gpr f.dst))
        (f.op.value (s.get f.sz (placeOf f.p s.gpr f.dst))) ∧
      Wrote s t f.sz (f.op.value (s.get f.sz (placeOf f.p s.gpr f.dst))) (placeOf f.p s.gpr f.dst)

namespace Sys2Proof.Machine

/-! ### Shifts -/

/-- The result of a shift or rotate by `n`. -/
def ShiftKind.value {w : Nat} (op : ShiftKind) (x : BitVec w) (n : Nat) : BitVec w :=
  match op with
  | .rol => x.rotateLeft n
  | .ror => x.rotateRight n
  | .shl => BitVec.ofNat w (x.toNat * 2 ^ n)
  | .shr => BitVec.ofNat w (x.toNat / 2 ^ n)
  | .sar => BitVec.ofInt w (x.toInt / 2 ^ n)

/-- The flags of a shift or rotate by `n`, not zero: CF is the last bit out and OF is defined for a count of 1. -/
def ShiftKind.flagsOk {w : Nat} (op : ShiftKind) (old new : Flags) (x r : BitVec w) (n : Nat) : Prop :=
  let ofl (b : Bool) : Option Bool := if n = 1 then some b else none
  match op with
  | .rol => FlagsTo old new (some (r.getLsbD 0)) (some old.pf) (some old.af) (some old.zf) (some old.sf)
      (ofl (r.msb != r.getLsbD 0))
  | .ror => FlagsTo old new (some r.msb) (some old.pf) (some old.af) (some old.zf) (some old.sf)
      (ofl (r.msb != r.getLsbD (w - 2)))
  | .shl => FlagsTo old new (if n ≤ w then some (decide (x.toNat * 2 ^ n / 2 ^ w % 2 = 1)) else none)
      (some (evenOnes r)) none (some (decide (r = 0))) (some r.msb) (ofl (r.msb != new.cf))
  | .shr => FlagsTo old new (if n ≤ w then some (decide (x.toNat / 2 ^ (n - 1) % 2 = 1)) else none)
      (some (evenOnes r)) none (some (decide (r = 0))) (some r.msb) (ofl x.msb)
  | .sar => FlagsTo old new (some (decide (x.toInt / 2 ^ (n - 1) % 2 = 1)))
      (some (evenOnes r)) none (some (decide (r = 0))) (some r.msb) (ofl false)

end Sys2Proof.Machine

/-- ROL, ROR, SHL, SHR and SAR complete in every form: a count of zero changes nothing, another gives the shifted value
and its flags (R381 to R386). -/
def Obligations.ShiftResult : Prop :=
  ∀ (i : Instr) (f : ShiftForm) (s : State), IsShift i f → s.flat = true →
    s.mayUse f.sz true (placeOf f.p s.gpr f.dst) = true →
    ∃ t, exec i s = .next t ∧ Frame s t ∧
      if s.count f.n = 0 then t.gpr = s.gpr ∧ t.flags = s.flags ∧ SameBytes s t
      else
        f.op.flagsOk s.flags t.flags (s.get f.sz (placeOf f.p s.gpr f.dst))
          (f.op.value (s.get f.sz (placeOf f.p s.gpr f.dst)) (s.count f.n)) (s.count f.n) ∧
        Wrote s t f.sz (f.op.value (s.get f.sz (placeOf f.p s.gpr f.dst)) (s.count f.n)) (placeOf f.p s.gpr f.dst)

namespace Sys2Proof.Machine

/-- The result of a double shift by at most the width: the pair of the two operands, shifted as one number. -/
def doubleValue {w : Nat} (left : Bool) (x g : BitVec w) (n : Nat) : BitVec w :=
  if left then BitVec.ofNat w ((x.toNat * 2 ^ w + g.toNat) * 2 ^ n / 2 ^ w)
  else BitVec.ofNat w ((g.toNat * 2 ^ w + x.toNat) / 2 ^ n)

/-- The flags of a double shift by at most the width. -/
def doubleFlags {w : Nat} (left : Bool) (old new : Flags) (x r : BitVec w) (n : Nat) : Prop :=
  FlagsTo old new (some (x.getLsbD (if left then w - n else n - 1))) (some (evenOnes r)) none (some (decide (r = 0)))
    (some r.msb) (if n = 1 then some (r.msb != x.msb) else none)

end Sys2Proof.Machine

/-- SHLD and SHRD complete in every form: a count of zero changes nothing; one above the width leaves an undefined value
and undefined flags; another gives the shifted pair and its flags (R387, R388). -/
def Obligations.DoubleShiftResult : Prop :=
  ∀ (i : Instr) (f : DoubleForm) (s : State), IsDouble i f → s.flat = true →
    s.mayUse f.p.osz.size true (placeOf f.p s.gpr f.dst) = true →
    ∃ t, exec i s = .next t ∧ Frame s t ∧
      if s.count f.n = 0 then t.gpr = s.gpr ∧ t.flags = s.flags ∧ SameBytes s t
      else if f.p.osz.size.bits < s.count f.n then
        FlagsTo s.flags t.flags none none none none none none ∧
        ∃ v, Wrote s t f.p.osz.size v (placeOf f.p s.gpr f.dst)
      else
        doubleFlags f.left s.flags t.flags (s.get f.p.osz.size (placeOf f.p s.gpr f.dst))
          (doubleValue f.left (s.get f.p.osz.size (placeOf f.p s.gpr f.dst)) (s.view f.p.osz.size f.g) (s.count f.n))
          (s.count f.n) ∧
        Wrote s t f.p.osz.size
          (doubleValue f.left (s.get f.p.osz.size (placeOf f.p s.gpr f.dst)) (s.view f.p.osz.size f.g) (s.count f.n))
          (placeOf f.p s.gpr f.dst)

namespace Sys2Proof.Machine

/-! ### Bits -/

/-- The offset of a bit test as a signed number of its width: an immediate is small and positive. -/
def State.bitOffset (s : State) (o : OSz) : BitOff → Int
  | .imm v => v.toNat % o.size.bits
  | .reg g => (s.view o.size g).toInt

/-- The bit of the unit that is tested (R389). -/
def State.bitIndex (s : State) (o : OSz) (b : BitOff) : Nat := (s.bitOffset o b % o.size.bits).toNat

/-- The unit that holds the bit: the register, or the word or doubleword of the bit string (R389; an address wraps as the
operand's addresses do, log 22). -/
def bitPlace (s : State) (f : BitForm) : Place :=
  match f.dst with
  | .reg r => .reg r
  | .mem m =>
    match f.off with
    | .imm _ => .mem (segFor f.p m) (effAddr m s.gpr)
    | .reg g => .mem (segFor f.p m) (bitUnit m f.p.osz.size (effAddr m s.gpr) (s.view f.p.osz.size g))

/-- What becomes of the selected bit. -/
def BitAct.bit (a : BitAct) (b : Bool) : Bool :=
  match a with
  | .test => b
  | .set => true
  | .reset => false
  | .complement => !b

end Sys2Proof.Machine

/-- BT, BTS, BTR and BTC complete in every form: CF is the selected bit, that bit alone of the unit changes (for BT none),
ZF stays and the other status flags are undefined (R389 to R393). BT needs to write only under LOCK. That the address of the unit of
a bit string wraps at the address size is the model's choice (log 22). -/
def Obligations.BitTestResult : Prop :=
  ∀ (i : Instr) (f : BitForm) (s : State), IsBit i f → s.flat = true →
    s.mayUse f.p.osz.size (f.act != .test || f.p.lock) (bitPlace s f) = true →
    ∃ t v, exec i s = .next t ∧ Frame s t ∧
      FlagsTo s.flags t.flags (some ((s.get f.p.osz.size (bitPlace s f)).getLsbD (s.bitIndex f.p.osz f.off))) none none
        (some s.flags.zf) none none ∧
      (∀ j, j < f.p.osz.size.bits → v.getLsbD j =
        if j = s.bitIndex f.p.osz f.off then f.act.bit ((s.get f.p.osz.size (bitPlace s f)).getLsbD j)
        else (s.get f.p.osz.size (bitPlace s f)).getLsbD j) ∧
      (if f.act = .test then t.gpr = s.gpr ∧ SameBytes s t else Wrote s t f.p.osz.size v (bitPlace s f))

/-- BSF and BSR complete: a zero source sets ZF and leaves an undefined value in the register; another clears ZF and gives
the index of the lowest, or highest, 1 bit; the other status flags are undefined (R394, R395). -/
def Obligations.BitScanResult : Prop :=
  ∀ (high : Bool) (p : Pfx) (g : Reg) (rm : RM) (s : State), s.flat = true →
    s.mayUse p.osz.size false (placeOf p s.gpr rm) = true →
    ∃ t, exec (if high then .bsrGvEv p g rm else .bsfGvEv p g rm) s = .next t ∧ NoStore s t ∧
      FlagsTo s.flags t.flags none none none (some (decide (s.get p.osz.size (placeOf p s.gpr rm) = 0))) none none ∧
      if s.get p.osz.size (placeOf p s.gpr rm) = 0 then ∃ v, t.gpr = s.gpr.putView p.osz.size g v
      else ∃ k, k < p.osz.size.bits ∧ t.gpr = s.gpr.putView p.osz.size g (BitVec.ofNat _ k) ∧
        (s.get p.osz.size (placeOf p s.gpr rm)).getLsbD k = true ∧
        ∀ j, (if high then k < j else j < k) → (s.get p.osz.size (placeOf p s.gpr rm)).getLsbD j = false

namespace Sys2Proof.Machine

/-! ### Multiplication and division -/

/-- The accumulator pair after a number is put into it: AX; DX:AX, their upper halves kept; EDX:EAX. -/
def pairInto (g : Gpr) (sz : Size) (n : Int) : Gpr :=
  match sz with
  | .b => g.putView .w .eax (BitVec.ofInt 16 n)
  | .w => (g.putView .w .eax (BitVec.ofInt 16 n)).putView .w .edx (BitVec.ofInt 16 (n / 65536))
  | .d => (g.put .eax (BitVec.ofInt 32 n)).put .edx (BitVec.ofInt 32 (n / 4294967296))

/-- The number the accumulator pair holds: AX, DX:AX or EDX:EAX. -/
def pairValue (g : Gpr) (sz : Size) : Nat :=
  match sz with
  | .b => (g.view .w .eax).toNat
  | .w => (g.view .w .edx).toNat * 65536 + (g.view .w .eax).toNat
  | .d => g.edx.toNat * 4294967296 + g.eax.toNat

/-- The same number, read as signed. -/
def pairSigned (g : Gpr) (sz : Size) : Int :=
  if pairValue g sz < 2 ^ (2 * sz.bits - 1) then pairValue g sz else (pairValue g sz : Int) - 2 ^ (2 * sz.bits)

end Sys2Proof.Machine

/-- MUL and the one-operand IMUL complete: the exact product goes to the accumulator pair, and CF and OF tell whether its
upper half holds anything but zeros, or the sign (R375, R376). -/
def Obligations.MultiplyResult : Prop :=
  ∀ (signed : Bool) (i : Instr) (f : RmForm) (s : State), (if signed then IsImul i f else IsMul i f) → s.flat = true →
    s.mayUse f.sz false (placeOf f.p s.gpr f.src) = true →
    let x := s.view f.sz .eax
    let y := s.get f.sz (placeOf f.p s.gpr f.src)
    let n : Int := if signed then x.toInt * y.toInt else x.toNat * y.toNat
    let big : Bool := if signed then decide (n < -2 ^ (f.sz.bits - 1) ∨ 2 ^ (f.sz.bits - 1) ≤ n)
      else decide (2 ^ f.sz.bits ≤ n)
    ∃ t, exec i s = .next t ∧ NoStore s t ∧ t.gpr = pairInto s.gpr f.sz n ∧
      FlagsTo s.flags t.flags (some big) none none none none (some big)

/-- The two-operand and three-operand IMUL complete: the register gets the low half of the exact product, and CF and OF
tell whether the product fits (R377). -/
def Obligations.MultiplyToResult : Prop :=
  ∀ (i : Instr) (f : ImulForm) (s : State), IsImulTo i f → s.flat = true →
    s.mayUse f.p.osz.size false (placeOf f.p s.gpr f.rm) = true →
    let n : Int := (s.get f.p.osz.size (placeOf f.p s.gpr f.rm)).toInt * (s.factor f).toInt
    let big : Bool := decide (n < -2 ^ (f.p.osz.size.bits - 1) ∨ 2 ^ (f.p.osz.size.bits - 1) ≤ n)
    ∃ t, exec i s = .next t ∧ NoStore s t ∧ t.gpr = s.gpr.putView f.p.osz.size f.g (BitVec.ofInt _ n) ∧
      FlagsTo s.flags t.flags (some big) none none none none (some big)

namespace Sys2Proof.Machine

/-- Quotient and remainder in the accumulator pair: AL and AH, AX and DX, EAX and EDX. -/
def divInto (g : Gpr) (sz : Size) (q m : Int) : Gpr :=
  match sz with
  | .b => (g.putView .b .eax (BitVec.ofInt 8 q)).putView .b .esp (BitVec.ofInt 8 m)
  | .w => (g.putView .w .eax (BitVec.ofInt 16 q)).putView .w .edx (BitVec.ofInt 16 m)
  | .d => (g.put .eax (BitVec.ofInt 32 q)).put .edx (BitVec.ofInt 32 m)

/-- Dividend, divisor, and the range of the quotient of a division. -/
def divisionOk (signed : Bool) (sz : Size) (d q : Int) : Prop :=
  d ≠ 0 ∧ if signed then -2 ^ (sz.bits - 1) ≤ q ∧ q < 2 ^ (sz.bits - 1) else q < 2 ^ sz.bits

end Sys2Proof.Machine

/-- DIV and IDIV complete where the divisor is not zero and the quotient fits: `q` and `m` with n = q * d + m, the
remainder smaller than the divisor and of the dividend's sign; the flags are undefined. Elsewhere they raise a divide
error (R378, R379, R602). -/
def Obligations.DivideResult : Prop :=
  ∀ (signed : Bool) (i : Instr) (f : RmForm) (s : State), (if signed then IsIdiv i f else IsDiv i f) →
    s.flat = true → s.mayUse f.sz false (placeOf f.p s.gpr f.src) = true →
    let y := s.get f.sz (placeOf f.p s.gpr f.src)
    let n : Int := if signed then pairSigned s.gpr f.sz else pairValue s.gpr f.sz
    let d : Int := if signed then y.toInt else y.toNat
    (∀ q m : Int, n = q * d + m → m.natAbs < d.natAbs → 0 ≤ n * m → divisionOk signed f.sz d q →
      ∃ t, exec i s = .next t ∧ NoStore s t ∧ t.gpr = divInto s.gpr f.sz q m ∧
        FlagsTo s.flags t.flags none none none none none none) ∧
    (¬ divisionOk signed f.sz d (n.tdiv d) →
      ∃ c k, exec i s = takeException (Exc.fault vDE none) s ((s.advance.setCache c).setDraws k))
/-- MOV between registers and memory, of an immediate, and to or from an absolute offset completes: the destination gets the
source, and no flag changes (R420 to R422). -/
def Obligations.MoveResult : Prop :=
  ∀ (i : Instr) (f : MoveForm) (s : State), IsMove i f → s.flat = true →
    s.mayUse f.sz true (locPlace f.p s.gpr f.dst) = true → s.mayMove f.p f.sz f.src = true →
    ∃ t, exec i s = .next t ∧ Frame s t ∧ t.flags = s.flags ∧
      Wrote s t f.sz (s.moved f.p f.sz f.src) (locPlace f.p s.gpr f.dst)

/-- MOVZX and MOVSX complete: the register gets the source with zeros, or its sign, above it (R425, R426). -/
def Obligations.ExtendResult : Prop :=
  ∀ (i : Instr) (f : ExtendForm) (s : State), IsExtend i f → s.flat = true →
    s.mayUse f.src false (placeOf f.p s.gpr f.rm) = true →
    ∃ t, exec i s = .next t ∧ NoStore s t ∧ t.flags = s.flags ∧
      t.gpr = s.gpr.putView f.p.osz.size f.g
        (if f.signed then BitVec.ofInt _ (s.get f.src (placeOf f.p s.gpr f.rm)).toInt
         else BitVec.ofNat _ (s.get f.src (placeOf f.p s.gpr f.rm)).toNat)

/-- NOP, LEA, CBW with CWDE, CWD with CDQ, and BSWAP complete without an access: NOP changes no register, LEA gives the
offset of its operand, CBW and CWD extend the sign of the accumulator, BSWAP turns the four bytes of a register end for
end, or with a 16-bit operand size leaves some value in that register alone (R396, R428 to R431). -/
def Obligations.RegisterOnlyResult : Prop :=
  ∀ (p : Pfx) (g : Reg) (m : MemOp) (s : State),
    (∃ t, exec (.nop p) s = .next t ∧ NoStore s t ∧ t.flags = s.flags ∧ t.gpr = s.gpr) ∧
    (∃ t, exec (.leaGvM p g m) s = .next t ∧ NoStore s t ∧ t.flags = s.flags ∧
      t.gpr = s.gpr.putView p.osz.size g ((effAddr m s.gpr).setWidth p.osz.size.bits)) ∧
    (∃ t, exec (.cbw p) s = .next t ∧ NoStore s t ∧ t.flags = s.flags ∧
      t.gpr = match p.osz with
        | .o16 => s.gpr.putView .w .eax (BitVec.ofInt 16 (s.view .b .eax).toInt)
        | .o32 => s.gpr.put .eax (BitVec.ofInt 32 (s.view .w .eax).toInt)) ∧
    (∃ t, exec (.cwd p) s = .next t ∧ NoStore s t ∧ t.flags = s.flags ∧
      t.gpr = s.gpr.putView p.osz.size .edx (BitVec.ofInt _ (if (s.view p.osz.size .eax).toInt < 0 then -1 else 0))) ∧
    (∃ t v, exec (.bswapR p g) s = .next t ∧ NoStore s t ∧ t.flags = s.flags ∧ t.gpr = s.gpr.put g v ∧
      (p.osz = .o32 → ∀ k, k < 4 → v.extractLsb' (8 * k) 8 = (s.reg g).extractLsb' (8 * (3 - k)) 8))

/-- XCHG completes: the operand and the register change places, in memory as one read and one write (R427). -/
def Obligations.ExchangeResult : Prop :=
  ∀ (i : Instr) (f : XchgForm) (s : State), IsXchg i f → s.flat = true →
    s.mayUse f.sz true (placeOf f.p s.gpr f.rm) = true →
    ∃ t, exec i s = .next t ∧ Frame s t ∧ t.flags = s.flags ∧
      match placeOf f.p s.gpr f.rm with
      | .reg r => t.gpr = (s.gpr.putView f.sz r (s.view f.sz f.g)).putView f.sz f.g (s.view f.sz r) ∧ t.mem = s.mem
      | .mem seg off =>
        t.gpr = s.gpr.putView f.sz f.g (s.value seg off f.sz.bytes f.sz.bits) ∧
        Stored s t seg off (toLe f.sz.bytes (s.view f.sz f.g))

namespace Sys2Proof.Machine

/-- The conditions by the flags they test (R274): the odd codes are the opposites of the even ones. -/
def condMeaning (c : Cond) (f : Flags) : Prop :=
  match c with
  | .o => f.of = true
  | .no => ¬ f.of = true
  | .b => f.cf = true
  | .ae => ¬ f.cf = true
  | .e => f.zf = true
  | .ne => ¬ f.zf = true
  | .be => f.cf = true ∨ f.zf = true
  | .a => ¬ (f.cf = true ∨ f.zf = true)
  | .s => f.sf = true
  | .ns => ¬ f.sf = true
  | .p => f.pf = true
  | .np => ¬ f.pf = true
  | .l => f.sf ≠ f.of
  | .ge => ¬ f.sf ≠ f.of
  | .le => f.zf = true ∨ f.sf ≠ f.of
  | .g => ¬ (f.zf = true ∨ f.sf ≠ f.of)

end Sys2Proof.Machine

/-- SETcc completes: the byte becomes 1 where the condition holds, else 0 (R432, R274). -/
def Obligations.SetConditionResult : Prop :=
  ∀ (p : Pfx) (cc : Cond) (rm : RM) (s : State), s.flat = true → s.mayUse .b true (placeOf p s.gpr rm) = true →
    ∃ t v, exec (.setccEb p cc rm) s = .next t ∧ Frame s t ∧ t.flags = s.flags ∧ Wrote s t .b v (placeOf p s.gpr rm) ∧
      (condMeaning cc s.flags → v = 1) ∧ (¬ condMeaning cc s.flags → v = 0)

/-! ### Segment registers -/

/-- MOV from a segment register completes: a word of memory or the low half of a register gets the selector; with a 32-bit
operand size the upper half of the register is undefined (R423). -/
def Obligations.MoveFromSegment : Prop :=
  ∀ (p : Pfx) (rm : RM) (sr : Seg) (s : State), s.flat = true → s.mayUse .w true (placeOf p s.gpr rm) = true →
    ∃ t, exec (.movEwSreg p rm sr) s = .next t ∧ Frame s t ∧ t.flags = s.flags ∧
      match placeOf p s.gpr rm, p.osz with
      | .reg r, .o32 => t.mem = s.mem ∧ ∃ hi : Half, t.gpr = s.gpr.put r (hi ++ (s.seg.get sr).sel)
      | pl, _ => Wrote s t .w (s.seg.get sr).sel pl

namespace Sys2Proof.Machine

/-- Segment registers are loaded without descriptors: PE clear, SMM, or Virtual-8086 mode (R644). -/
def flatLoads (s : State) : Prop := s.pe = false ∨ s.smm.active = true ∨ s.flags.vm = true

/-- Segment registers are loaded from descriptors: Protected mode outside SMM (R644). -/
def descLoads (s : State) : Prop := s.mode = .prot ∧ s.smm.active = false

/-- What a selector loads without a descriptor: the base is sixteen times the selector; in Real mode and SMM the limit and
the attributes stay, in Virtual-8086 mode they are those of a 64-Kbyte data segment at level 3 (R30, R113, R644). -/
def flatLoad (s : State) (r : SegReg) (sel : Half) : SegReg :=
  if s.pe = false ∨ s.smm.active = true then { r with sel := sel, base := BitVec.ofNat 32 (sel.toNat * 16) }
  else
    { sel := sel, base := BitVec.ofNat 32 (sel.toNat * 16), limit := 0xFFFF, attr := { SegAttr.data16 with dpl := 3 } }

/-- Interrupts are held off for one instruction after a load of SS, but not for two loads in a row (R61, R424). -/
def shadowAfter (s : State) (sr : Seg) : Intr :=
  if sr = .ss then { s.intr with shadow := if s.scr.afterSs then .none else .ss } else s.intr

end Sys2Proof.Machine

/-- MOV to a segment register and POP SS complete outside Protected mode and in SMM: the register is loaded without a
descriptor, and nothing else changes but the stack pointer of POP SS and the hold after a load of SS (R424, R443, R644). -/
def Obligations.LoadSegmentFlat : Prop :=
  ∀ (p : Pfx) (sr : Seg) (rm : RM) (s : State), s.flat = true → flatLoads s →
    (sr ≠ .cs → s.mayUse .w false (placeOf p s.gpr rm) = true →
      ∃ t, exec (.movSregEw p sr rm) s = .next t ∧
        t = { s.advance with
          cache := t.cache, draws := t.draws, intr := shadowAfter s sr,
          seg := s.seg.put sr (flatLoad s (s.seg.get sr) (s.get .w (placeOf p s.gpr rm))) }) ∧
    (s.may .ss (s.stackOff 0) p.osz.bytes p.osz.bytes false = true →
      ∃ t, exec (.popSs p) s = .next t ∧
        t = { s.advance with
          cache := t.cache, draws := t.draws, intr := shadowAfter s .ss, gpr := s.gpr.put .esp (s.popped p.osz.bytes),
          seg := s.seg.put .ss (flatLoad s s.seg.ss (s.value .ss (s.stackOff 0) 2 16)) })

namespace Sys2Proof.Machine

/-- The descriptor a selector names, as the table holds it. -/
def descAt (s : State) (la : Word) : Desc := { la := la, q := ofLe 64 (s.sysBytes la 8) }

/-- A data or stack segment descriptor passes the checks of type and privilege (R113; a conforming code segment has no check of
privilege, log 10). -/
def segAdmitted (s : State) (sr : Seg) (sel : Half) (d : Desc) : Bool :=
  if sr = .ss then d.attr.writable && d.dpl == s.level && rpl sel == s.level
  else d.attr.readable && (d.attr.conforming || decide (max s.level (rpl sel) ≤ d.dpl))

/-- A data or stack segment descriptor may be loaded (R113). -/
def segUsable (s : State) (sr : Seg) (sel : Half) (d : Desc) : Bool := segAdmitted s sr sel d && d.attr.p

/-- The fault of a load that no descriptor of the table allows, or that its descriptor does not; its error code is the selector
(R113). -/
def segFault (s : State) (sr : Seg) (sel : Half) : Option Byte :=
  match s.descAddr sel with
  | none => some vGP
  | some la =>
    if !segAdmitted s sr sel (descAt s la) then some vGP
    else if (descAt s la).attr.p then none
    else if sr = .ss then some vSS else some vNP

/-- An instruction raises a fault with an error code, with nothing stored before. -/
def raises (i : Instr) (s : State) (v : Byte) (code : Half) : Prop :=
  ∃ u : State, exec i s = takeException (Exc.fault v (some code)) s u ∧ u.mem = s.mem

/-- A segment register loaded from a descriptor, with the Accessed bit set (R113, R641). -/
def loaded (sel : Half) (d : Desc) : SegReg :=
  { sel := sel, base := d.base, limit := d.limit, attr := { d.attr with typ := d.attr.typ ||| 1 } }

/-- The Accessed bits of the descriptors at these addresses are set, and no other byte has changed (R106). -/
def accessedAt (s t : State) (las : List Word) : Prop :=
  ∀ a, t.mem.read a = if ∃ la ∈ las, a = s.sysAddr la 5 then s.mem.read a ||| 1 else s.mem.read a

end Sys2Proof.Machine

/-- In Protected mode outside SMM MOV to a segment register and POP SS with a usable descriptor complete: selector, base, limit and
attributes are loaded, the Accessed bit is set in the register and in memory, and nothing else changes but the stack pointer of
POP SS and the hold after a load of SS. With a selector that is not null and a descriptor that is beyond its table, of the wrong type
or privilege, or not present they raise GP, NP or SS with the selector as the error code; POP SS of a null selector raises GP(0)
(R113, R424, R443, R641, R644). That a conforming code segment has no check of privilege is the model's choice (log 10). -/
def Obligations.MoveToSegmentProtected : Prop :=
  ∀ (p : Pfx) (sr : Seg) (rm : RM) (la : Word) (s : State), s.flat = true → descLoads s →
    (let sel := s.get .w (placeOf p s.gpr rm)
     sr ≠ .cs → s.mayUse .w false (placeOf p s.gpr rm) = true → nullSel sel = false → s.descAddr sel = some la →
      segUsable s sr sel (descAt s la) = true →
      ∃ t, exec (.movSregEw p sr rm) s = .next t ∧
        t = { s.advance with
          cache := t.cache, draws := t.draws, mem := t.mem, intr := shadowAfter s sr,
          seg := s.seg.put sr (loaded sel (descAt s la)) } ∧ accessedAt s t [la]) ∧
    (let sel : Half := s.value .ss (s.stackOff 0) 2 16
     s.may .ss (s.stackOff 0) p.osz.bytes p.osz.bytes false = true → nullSel sel = false → s.descAddr sel = some la →
      segUsable s .ss sel (descAt s la) = true →
      ∃ t, exec (.popSs p) s = .next t ∧
        t = { s.advance with
          cache := t.cache, draws := t.draws, mem := t.mem, intr := shadowAfter s .ss,
          gpr := s.gpr.put .esp (s.popped p.osz.bytes), seg := s.seg.put .ss (loaded sel (descAt s la)) } ∧
        accessedAt s t [la]) ∧
    (let sel := s.get .w (placeOf p s.gpr rm)
     sr ≠ .cs → s.mayUse .w false (placeOf p s.gpr rm) = true → nullSel sel = false →
      ∀ v, segFault s sr sel = some v → raises (.movSregEw p sr rm) s v (sel &&& 0xFFFC)) ∧
    (let sel : Half := s.value .ss (s.stackOff 0) 2 16
     s.may .ss (s.stackOff 0) p.osz.bytes p.osz.bytes false = true →
      (nullSel sel = true → raises (.popSs p) s vGP 0) ∧
      (nullSel sel = false → ∀ v, segFault s .ss sel = some v → raises (.popSs p) s v (sel &&& 0xFFFC)))

/-! ### The stack -/

/-- PUSH completes: the source goes to the bytes below the top of the stack and the stack pointer moves to them (R440,
R441). -/
def Obligations.PushResult : Prop :=
  ∀ (i : Instr) (f : PushForm) (s : State), IsPush i f → s.flat = true → s.maySrc f.p f.p.osz.size f.src = true →
    s.may .ss (s.pushOff s.gpr.esp f.p.osz.bytes) f.p.osz.bytes f.p.osz.bytes true = true →
    ∃ t, exec i s = .next t ∧ Frame s t ∧ t.flags = s.flags ∧ t.gpr = s.gpr.put .esp (s.pushed f.p.osz.bytes) ∧
      Stored s t .ss (s.pushOff s.gpr.esp f.p.osz.bytes) (toLe f.p.osz.bytes (s.src f.p f.p.osz.size f.src))

/-- POP completes: the value at the top of the stack goes to the operand, whose address uses the stack pointer above it
(R440, R442). -/
def Obligations.PopResult : Prop :=
  ∀ (i : Instr) (p : Pfx) (rm : RM) (s : State), IsPop i (p, rm) → s.flat = true →
    s.may .ss (s.stackOff 0) p.osz.bytes p.osz.bytes false = true →
    let u := s.setGpr (s.gpr.put .esp (s.popped p.osz.bytes))
    u.mayUse p.osz.size true (placeOf p u.gpr rm) = true →
    ∃ t, exec i s = .next t ∧ Frame s t ∧ t.flags = s.flags ∧
      Wrote u t p.osz.size (s.value .ss (s.stackOff 0) p.osz.bytes p.osz.size.bits) (placeOf p u.gpr rm)

namespace Sys2Proof.Machine

/-- The image PUSHF pushes (R334): the low half as it is, or all but VM and RF; a Virtual-8086 program under VME with
IOPL below 3 sees VIF in the place of IF, and IOPL as 3. -/
def pushedFlags (s : State) (o : OSz) : Word :=
  if s.mode = .v86 ∧ s.flags.iopl ≠ 3 then { s.flags with ifl := s.flags.vif, iopl := 3 : Flags }.toWord
  else match o with
    | .o16 => s.flags.toWord
    | .o32 => { s.flags with vm := false, rf := false : Flags }.toWord

/-- PUSHF and POPF are not trapped: outside Virtual-8086 mode, or at IOPL 3, or the 16-bit forms under VME (R334, R335). -/
def flagsAllowed (s : State) (o : OSz) : Bool := s.mode != .v86 || s.flags.iopl == 3 || (s.vme && o == .o16)

/-- The flags POPF leaves from an image (R335): the status flags, TF, DF and NT always; IF and IOPL where the level
permits; AC and ID for POPFD, which clears RF; VM, VIF and VIP never. -/
def poppedFlags (s : State) (o : OSz) (f : Flags) : Flags :=
  let old := s.flags
  let free := !s.pe || s.smm.active
  { cf := f.cf, pf := f.pf, af := f.af, zf := f.zf, sf := f.sf, tf := f.tf, df := f.df, of := f.of, nt := f.nt,
    ifl := if free || decide (s.level ≤ old.iopl.toNat) then f.ifl else old.ifl,
    iopl := if free || s.level == 0 then f.iopl else old.iopl,
    ac := if o = .o32 then f.ac else old.ac, id := if o = .o32 then f.id else old.id,
    rf := if o = .o32 then false else old.rf, vm := old.vm, vif := old.vif, vip := old.vip }

/-- The flags the 16-bit POPF and IRET of a Virtual-8086 program leave under VME below IOPL 3: VIF stands for IF, which stays with
IOPL (R335, R340). -/
def vmeFlags (s : State) (f : Flags) : Flags :=
  { s.flags with
    cf := f.cf, pf := f.pf, af := f.af, zf := f.zf, sf := f.sf, tf := f.tf, df := f.df, of := f.of, nt := f.nt, vif := f.ifl }

/-- The image that those may not load (R335, R340). -/
def vmeBlocked (s : State) (f : Flags) : Bool := (f.ifl && s.flags.vip) || f.tf

end Sys2Proof.Machine

/-- PUSHF and PUSHFD complete where they are allowed, and raise GP(0) elsewhere (R334). -/
def Obligations.PushFlagsResult : Prop :=
  ∀ (p : Pfx) (s : State), s.flat = true →
    s.may .ss (s.pushOff s.gpr.esp p.osz.bytes) p.osz.bytes p.osz.bytes true = true →
    if flagsAllowed s p.osz then
      ∃ t, exec (.pushf p) s = .next t ∧ Frame s t ∧ t.flags = s.flags ∧ t.gpr = s.gpr.put .esp (s.pushed p.osz.bytes) ∧
        Stored s t .ss (s.pushOff s.gpr.esp p.osz.bytes) (toLe p.osz.bytes (pushedFlags s p.osz))
    else exec (.pushf p) s = takeException (Exc.fault vGP (some 0)) s s.advance

/-- POPF and POPFD complete: the flags the mode and the level permit come from the image. A Virtual-8086 program below IOPL 3 has
the 16-bit form under VME alone, which puts IF of the image into VIF, and raises GP(0) where the image has TF set, or IF with VIP
set; the other forms raise GP(0) there (R335). -/
def Obligations.PopFlagsResult : Prop :=
  ∀ (p : Pfx) (s : State), s.flat = true →
    (flagsAllowed s p.osz = false → exec (.popf p) s = takeException (Exc.fault vGP (some 0)) s s.advance) ∧
    (s.may .ss (s.stackOff 0) p.osz.bytes p.osz.bytes false = true →
      let f := Flags.ofWord (s.value .ss (s.stackOff 0) p.osz.bytes 32)
      (s.mode ≠ .v86 ∨ s.flags.iopl = 3 →
        ∃ t, exec (.popf p) s = .next t ∧ NoStore s t ∧ t.gpr = s.gpr.put .esp (s.popped p.osz.bytes) ∧
          t.flags = poppedFlags s p.osz f) ∧
      (s.mode = .v86 → s.flags.iopl ≠ 3 → s.vme = true → p.osz = .o16 →
        if vmeBlocked s f then
          ∃ c k, exec (.popf p) s = takeException (Exc.fault vGP (some 0)) s ((s.advance.setCache c).setDraws k)
        else
          ∃ t, exec (.popf p) s = .next t ∧ NoStore s t ∧ t.gpr = s.gpr.put .esp (s.popped p.osz.bytes) ∧
            t.flags = vmeFlags s f))

/-! ### Control transfer -/

namespace Sys2Proof.Machine

/-- The bus record after a taken branch: where HWCR enables branch tracing, two special cycles with the source and the
target of the branch (R211, R833, R850). -/
def branchRecord (s t : State) : List BusEvent :=
  if s.msr.hwcr.extractLsb' 1 3 = 1 ∧ s.msr.hwcr.getLsbD 5 = true then
    .special 0xDF (0x80000000 ||| traceMode t.mode ||| bitAt t.seg.cs.attr.db 28 ||| (t.seg.cs.sel.setWidth 32 <<< 4))
      t.eip :: .special 0xDF (s.seg.cs.sel.setWidth 32 <<< 4) s.eip :: s.bus
  else s.bus

/-- A target lies within the code segment (R450). -/
def inCode (s : State) (t : Word) : Bool := decide (t.toNat ≤ s.seg.cs.byteLimit)

/-- A conditional transfer is taken (R453 to R455): the condition holds; CX or ECX is zero; it is not 1 before it is
counted down, and ZF is as the form asks. -/
def taken (s : State) (f : BranchForm) : Bool :=
  match f.kind with
  | .cond cc => condHolds cc s.flags
  | .cxz => s.view f.p.asz.size .ecx == 0
  | .loop => s.view f.p.asz.size .ecx != 1
  | .loope => s.view f.p.asz.size .ecx != 1 && s.flags.zf
  | .loopne => s.view f.p.asz.size .ecx != 1 && !s.flags.zf

/-- The registers after a conditional transfer: the loops count CX or ECX down (R455). -/
def counted (s : State) (f : BranchForm) : Gpr :=
  match f.kind with
  | .cond _ => s.gpr
  | .cxz => s.gpr
  | .loop => s.gpr.putView f.p.asz.size .ecx (s.view f.p.asz.size .ecx - 1)
  | .loope => s.gpr.putView f.p.asz.size .ecx (s.view f.p.asz.size .ecx - 1)
  | .loopne => s.gpr.putView f.p.asz.size .ecx (s.view f.p.asz.size .ecx - 1)

end Sys2Proof.Machine

/-- JMP near completes: EIP becomes the target, and no register, flag or memory changes (R450 to R452). -/
def Obligations.JumpResult : Prop :=
  ∀ (i : Instr) (p : Pfx) (g : Target) (s : State), IsJump i (p, g) → s.flat = true → s.mayTarget p g = true →
    inCode s (s.target p g) = true →
    ∃ t, exec i s = .next t ∧ Kept s t ∧ t.eip = s.target p g ∧ t.gpr = s.gpr ∧ t.flags = s.flags ∧ t.mem = s.mem ∧
      t.bus = branchRecord s t

/-- Jcc, JCXZ, LOOP, LOOPE and LOOPNE complete: EIP becomes the target where the transfer is taken, else the next
instruction; the loops count down, and no flag or memory changes (R453 to R455). -/
def Obligations.BranchResult : Prop :=
  ∀ (i : Instr) (f : BranchForm) (s : State), IsBranch i f →
    (taken s f = true → inCode s (s.target f.p f.to_) = true) →
    ∃ t, exec i s = .next t ∧ Kept s t ∧ t.gpr = counted s f ∧ t.flags = s.flags ∧ t.mem = s.mem ∧
      if taken s f then t.eip = s.target f.p f.to_ ∧ t.bus = branchRecord s t else t.eip = s.nextEip ∧ t.bus = s.bus

/-- CALL near completes: the address of the next instruction is pushed at the operand size, and EIP becomes the target,
read before the push (R456, R457). -/
def Obligations.CallResult : Prop :=
  ∀ (i : Instr) (p : Pfx) (g : Target) (s : State), IsCall i (p, g) → s.flat = true → s.mayTarget p g = true →
    inCode s (s.target p g) = true →
    s.may .ss (s.pushOff s.gpr.esp p.osz.bytes) p.osz.bytes p.osz.bytes true = true →
    ∃ t, exec i s = .next t ∧ Kept s t ∧ t.eip = s.target p g ∧ t.flags = s.flags ∧ t.bus = branchRecord s t ∧
      t.gpr = s.gpr.put .esp (s.pushed p.osz.bytes) ∧
      Stored s t .ss (s.pushOff s.gpr.esp p.osz.bytes) (toLe p.osz.bytes s.nextEip)

/-- RET near completes: EIP becomes the value popped, and the stack pointer moves above it and the bytes the instruction
drops (R458). -/
def Obligations.ReturnResult : Prop :=
  ∀ (i : Instr) (p : Pfx) (n : Nat) (s : State), IsRet i (p, n) → s.flat = true →
    s.may .ss (s.stackOff 0) p.osz.bytes p.osz.bytes false = true →
    inCode s (s.value .ss (s.stackOff 0) p.osz.bytes 32) = true →
    ∃ t, exec i s = .next t ∧ Kept s t ∧ t.eip = s.value .ss (s.stackOff 0) p.osz.bytes 32 ∧ t.flags = s.flags ∧
      t.mem = s.mem ∧ t.bus = branchRecord s t ∧
      t.gpr = s.gpr.put .esp (spAdd s.bigStack (s.popped p.osz.bytes) (BitVec.ofNat 32 n))

namespace Sys2Proof.Machine

/-! ### Task switches -/

/-- A segment register of Virtual-8086 mode (R113, R340). -/
def v86Seg (w : Word) : SegReg :=
  { sel := w.setWidth 16, base := BitVec.ofNat 32 (w.toNat % 65536 * 16), limit := 0xFFFF,
    attr := { SegAttr.data16 with dpl := 3 } }

/-- The register a system descriptor loads. -/
def sysLoad (sel : Half) (d : Desc) (typ : BitVec 4) : SegReg :=
  { sel := sel, base := d.base, limit := d.limit, attr := { d.attr with typ := typ } }

/-- A 16-bit field of the current TSS. -/
def State.tssHalf (s : State) (off : Nat) : Half := ofLe 16 (s.sysBytes (s.sys.tr.base + BitVec.ofNat 32 off) 2)

/-- These bytes are stored at a linear address of a system structure. -/
def State.sysPut (s : State) (la : Word) (bs : List Byte) : State :=
  { s with mem := bs.zipIdx.foldl (fun m x => m.write (s.sysAddr la x.2) x.1) s.mem }

/-- One byte of a system structure is changed. -/
def State.sysChange (s : State) (la : Word) (f : Byte → Byte) : State := s.sysPut la [f (s.mem.read (s.sysAddr la 0))]

/-- A field of the TSS at a base. -/
def State.tssField (s : State) (base : Word) (off n w : Nat) : BitVec w := ofLe w (s.sysBytes (base + BitVec.ofNat 32 off) n)

/-- A TSS type is the 32-bit one (R642). -/
def bigTss (typ : BitVec 4) : Bool := typ.getLsbD 3

/-- The eight general registers in the order of their numbers. -/
def allRegs : List Reg := [.eax, .ecx, .edx, .ebx, .esp, .ebp, .esi, .edi]

/-- The fields of a 32-bit TSS, or those of a 16-bit one, that a task switch stores: each offset with its bytes (R640, R645). -/
def outgoing (s : State) (ret : Word) (img : Flags) : List (Nat × List Byte) :=
  if bigTss s.sys.tr.attr.typ then
    [(0x20, toLe 4 ret), (0x24, toLe 4 img.toWord)] ++ allRegs.zipIdx.map (fun x => (0x28 + 4 * x.2, toLe 4 (s.reg x.1))) ++
    [(0x48, toLe 2 s.seg.es.sel), (0x4C, toLe 2 s.seg.cs.sel), (0x50, toLe 2 s.seg.ss.sel), (0x54, toLe 2 s.seg.ds.sel),
     (0x58, toLe 2 s.seg.fs.sel), (0x5C, toLe 2 s.seg.gs.sel)]
  else
    [(0x0E, toLe 2 ret), (0x10, toLe 2 img.toWord)] ++ allRegs.zipIdx.map (fun x => (0x12 + 2 * x.2, toLe 2 (s.reg x.1))) ++
    [(0x22, toLe 2 s.seg.es.sel), (0x24, toLe 2 s.seg.cs.sel), (0x26, toLe 2 s.seg.ss.sel), (0x28, toLe 2 s.seg.ds.sel)]

/-- The address of the byte of the outgoing TSS descriptor that holds its type (R642, R644). -/
def oldType (s : State) : Word := s.sys.gdtr.base + BitVec.ofNat 32 (s.sys.tr.sel.toNat / 8 * 8 + 5)

/-- Memory once the outgoing task is stored and the Busy bits and the link are written (R645 steps 3 to 5): the flags image of IRET
has NT clear; JMP and IRET clear the Busy bit of the outgoing descriptor, JMP and an interrupt set that of the incoming one. -/
def taskMemory (src : TaskSource) (s : State) (d : Desc) (ret : Word) (img : Flags) : State :=
  let img := if src = .iret then { img with nt := false } else img
  let s1 := (outgoing s ret img).foldl (fun u x => u.sysPut (s.sys.tr.base + BitVec.ofNat 32 x.1) x.2) s
  let s2 := if src = .interrupt then s1 else s1.sysChange (oldType s) (· &&& 0xFD)
  let s3 := if src = .iret then s2 else s2.sysChange (d.la + 5) (· ||| 2)
  if src = .interrupt then s3.sysPut d.base (toLe 2 s.sys.tr.sel) else s3

/-- A TSS descriptor of the GDT may be switched to (R645 step 1): available, or busy for IRET; for JMP its DPL; present; its limit. -/
def taskUsable (src : TaskSource) (s : State) (tsel : Half) (d : Desc) : Bool :=
  !tsel.getLsbD 2 && !nullSel tsel && !d.attr.s &&
    (if src = .iret then d.attr.typ == 3 || d.attr.typ == 11 else d.attr.typ == 1 || d.attr.typ == 9) &&
    (src != .jmp || decide (max s.level (rpl tsel) ≤ d.dpl)) && d.attr.p &&
    decide ((if bigTss d.attr.typ then 0x67 else 0x2B) ≤ d.byteLimit)

/-- A code segment descriptor may be loaded into CS by a task switch (R645 step 8). -/
def taskCode (sel : Half) (d : Desc) : Bool :=
  d.attr.isCode && (if d.attr.conforming then decide (d.dpl ≤ rpl sel) else d.dpl == rpl sel) && d.attr.p

/-- A segment register is loaded in the new task, from the descriptor as memory holds it then, whose Accessed bit is set (R113,
R645 step 8). -/
def taskLoad (u : State) (x : Seg × Half) : Option State :=
  if nullSel x.2 then (if x.1 = .cs ∨ x.1 = .ss then none else some { u with seg := u.seg.put x.1 (SegReg.null x.2) })
  else
    match u.descAddr x.2 with
    | none => none
    | some la =>
      if (if x.1 = .cs then taskCode x.2 (descAt u la) else segUsable u x.1 x.2 (descAt u la)) then
        some { u.sysChange (la + 5) (· ||| 1) with seg := u.seg.put x.1 (loaded x.2 (descAt u la)) }
      else none

/-- LDTR in the new task: an LDT of the GDT, or unusable with a null selector (R645 step 8; the null selector is log 52). -/
def taskLdtr (u : State) (sel : Half) : Option SegReg :=
  if nullSel sel then some (SegReg.null sel)
  else if sel.getLsbD 2 then none
  else
    match u.descAddr sel with
    | none => none
    | some la =>
      if !(descAt u la).attr.s && (descAt u la).attr.typ == 2 && (descAt u la).attr.p then some (sysLoad sel (descAt u la) 2)
      else none

/-- The six selectors an incoming TSS holds, CS and SS first. -/
def taskSelectors (u : State) (d : Desc) : List (Seg × Half) :=
  if bigTss d.attr.typ then
    [(.cs, u.tssField d.base 0x4C 2 16), (.ss, u.tssField d.base 0x50 2 16), (.ds, u.tssField d.base 0x54 2 16),
     (.es, u.tssField d.base 0x48 2 16), (.fs, u.tssField d.base 0x58 2 16), (.gs, u.tssField d.base 0x5C 2 16)]
  else
    [(.cs, u.tssField d.base 0x24 2 16), (.ss, u.tssField d.base 0x26 2 16), (.ds, u.tssField d.base 0x28 2 16),
     (.es, u.tssField d.base 0x22 2 16), (.fs, 0), (.gs, 0)]

/-- The selector for a segment register in such a list. -/
def selFor (l : List (Seg × Half)) (r : Seg) : Word := ((l.find? (·.1 == r)).elim 0 (·.2)).setWidth 32

/-- The state of the new task, without paging and with general registers `g` (R645 steps 6 to 10): TR, TS, the flags with NT set by
nesting, the segment registers, the debug trap of the T bit, and no local breakpoint. Nothing where a check of step 1 or 8 fails. -/
def newTask (src : TaskSource) (s : State) (tsel : Half) (ret : Word) (img : Flags) (g : Gpr) : Option State :=
  match s.descAddr tsel with
  | none => none
  | some la =>
    let d := descAt s la
    if taskUsable src s tsel d then
      let u := taskMemory src s d ret img
      let big := bigTss d.attr.typ
      let f := Flags.ofWord (if big then u.tssField d.base 0x24 4 32 else u.tssField d.base 0x10 2 32)
      let sels := taskSelectors u d
      let trap := big && (u.tssField d.base 0x64 2 16 : Half).getLsbD 0
      let v := { u with
        eip := if big then u.tssField d.base 0x20 4 32 else u.tssField d.base 0x0E 2 32
        gpr := g, flags := { f with nt := f.nt || src == .interrupt }, cpl := (selFor sels .cs).setWidth 2,
        cr := { s.cr with cr0 := s.cr.cr0 ||| 8 }, sys := { s.sys with tr := sysLoad tsel d (d.attr.typ ||| 2) },
        dr := { s.dr with dr6 := if trap then s.dr.dr6 ||| 0x8000 else s.dr.dr6, dr7 := s.dr.dr7 &&& 0xFFFFFEAA },
        intr := { s.intr with dbTrap := s.intr.dbTrap || trap }, scr := { s.scr with rfLoaded := true } }
      match taskLdtr v (u.tssField d.base (if big then 0x60 else 0x2A) 2 16) with
      | none => none
      | some l =>
        let v := { v with sys := { v.sys with ldtr := l } }
        if f.vm then
          some { v with
            cpl := 3,
            seg := { es := v86Seg (selFor sels .es), cs := v86Seg (selFor sels .cs), ss := v86Seg (selFor sels .ss),
                     ds := v86Seg (selFor sels .ds), fs := v86Seg (selFor sels .fs), gs := v86Seg (selFor sels .gs) } }
        else sels.foldlM taskLoad v
    else none

/-- The new task may be entered. -/
def mayEnter (src : TaskSource) (s : State) (tsel : Half) (ret : Word) (img : Flags) : Prop :=
  (newTask src s tsel ret img s.gpr).isSome = true

/-- `w` is the state of the new task, with the general registers of its TSS: of a 16-bit one their low halves (R640, R645). -/
def entersTask (src : TaskSource) (s : State) (tsel : Half) (ret : Word) (img : Flags) (w : State) : Prop :=
  ∃ (g : Gpr) (la : Word), newTask src s tsel ret img g = some w ∧ s.descAddr tsel = some la ∧
    let d := descAt s la
    let u := taskMemory src s d ret img
    ∀ x ∈ allRegs.zipIdx,
      if bigTss d.attr.typ then g.get x.1 = u.tssField d.base (0x28 + 4 * x.2) 4 32
      else (g.get x.1).setWidth 16 = u.tssField d.base (0x12 + 2 * x.2) 2 16

/-- What an instruction that switches tasks leaves besides the new task: memory that reads as given, and some caches and draws; whether
it sends branch messages is open (R850). -/
def taskEntered (w t : State) : Prop :=
  t = { w with mem := t.mem, cache := t.cache, draws := t.draws, bus := t.bus } ∧ SameBytes w t ∧
    (w.tracing = false → t.bus = w.bus)

/-! ### Far jumps -/

/-- The two far jumps with their operands: in the instruction, or read from memory, the offset first (R459). -/
inductive FarTarget (s : State) : Instr → Half → Word → Prop
  | ptr {p off sel} : FarTarget s (.jmpPtr p off sel) sel (truncTarget p.osz off)
  | mem {p m} : s.may (segFor p m) (effAddr m s.gpr) (p.osz.bytes + 2) 4 false = true →
      FarTarget s (.jmpMp p m) (ofLe 16 ((s.bytes (segFor p m) (effAddr m s.gpr) (p.osz.bytes + 2)).drop p.osz.bytes))
        (ofLe 32 ((s.bytes (segFor p m) (effAddr m s.gpr) (p.osz.bytes + 2)).take p.osz.bytes))

end Sys2Proof.Machine

namespace Sys2Proof.Machine

/-- A code segment descriptor passes the check of privilege of a far jump (R643). -/
def codeAdmitted (s : State) (sel : Half) (d : Desc) : Bool :=
  if d.attr.conforming then decide (d.dpl ≤ s.level) else decide (rpl sel ≤ s.level) && d.dpl == s.level

/-- The fault of a far jump by its descriptor, with its error code (R643, R645, R646): a code segment of another privilege, not present,
or too short; a data segment or a reserved type; a task gate or TSS of another privilege or not present, a TSS that is too
short. -/
def farFault (s : State) (sel : Half) (off : Word) : Option (Byte × Half) :=
  let code := sel &&& 0xFFFC
  if nullSel sel then some (vGP, 0)
  else match s.descAddr sel with
    | none => some (vGP, code)
    | some la =>
      let d := descAt s la
      if d.attr.isCode then
        if !codeAdmitted s sel d then some (vGP, code)
        else if !d.attr.p then some (vNP, code)
        else if d.byteLimit < off.toNat then some (vGP, 0) else none
      else if d.attr.s then some (vGP, code)
      else if d.attr.typ == 5 then
        if d.dpl < max s.level (rpl sel) then some (vGP, code) else if !d.attr.p then some (vNP, code) else none
      else if d.attr.typ == 1 || d.attr.typ == 9 then
        if sel.getLsbD 2 || d.dpl < max s.level (rpl sel) then some (vGP, code)
        else if !d.attr.p then some (vNP, code)
        else if d.byteLimit < (if bigTss d.attr.typ then 0x67 else 0x2B) then some (vTS, code) else none
      else if d.attr.typ == 4 || d.attr.typ == 12 then none
      else some (vGP, code)

end Sys2Proof.Machine

/-- A near jump, a taken conditional transfer or a call whose target lies beyond the code segment raises GP(0): nothing is
pushed or counted. A far jump beyond the limit of CS raises GP(0) outside Protected mode and in SMM; in Protected mode one with a null
selector raises GP(0), and one whose descriptor is beyond its table, of another type or privilege, not present or too short raises GP,
NP or TS with the selector as the error code, but GP(0) for an offset beyond a code segment. A RET whose popped target lies beyond the
code segment raises GP(0) with the stack pointer unmoved (R450, R458, R459, R643, R645, R646). -/
def Obligations.TransferFault : Prop :=
  (∀ (p : Pfx) (g : Target) (i : Instr) (s : State),
    (IsJump i (p, g) ∨ IsCall i (p, g) ∨ ∃ f, IsBranch i f ∧ f.p = p ∧ f.to_ = g ∧ taken s f = true) →
    s.flat = true → s.mayTarget p g = true → inCode s (s.target p g) = false →
    ∃ u : State, exec i s = takeException (Exc.fault vGP (some 0)) s u ∧ u.mem = s.mem) ∧
  (∀ (p : Pfx) (n : Nat) (i : Instr) (s : State), IsRet i (p, n) → s.flat = true →
    s.may .ss (s.stackOff 0) p.osz.bytes p.osz.bytes false = true →
    inCode s (s.value .ss (s.stackOff 0) p.osz.bytes 32) = false →
    ∃ u : State, exec i s = takeException (Exc.fault vGP (some 0)) s u ∧ u.mem = s.mem ∧
      (excState (Exc.fault vGP (some 0)) s u).gpr = s.gpr) ∧
  ∀ (i : Instr) (sel : Half) (off : Word) (s : State), FarTarget s i sel off → s.flat = true →
    (flatLoads s → inCode s off = false → raises i s vGP 0) ∧
    (descLoads s → ∀ v code, farFault s sel off = some (v, code) → raises i s v code)

namespace Sys2Proof.Machine

/-- A code segment descriptor may be the target of a far jump (R643). -/
def codeUsable (s : State) (sel : Half) (d : Desc) (off : Word) : Bool :=
  d.attr.isCode && codeAdmitted s sel d && d.attr.p && decide (off.toNat ≤ d.byteLimit)

/-- A far jump to this TSS selector directly, or through a task gate (R646). -/
def jumpsTo (s : State) (sel : Half) (d : Desc) (tsel : Half) : Prop :=
  d.attr.s = false ∧
  (((d.attr.typ = 1 ∨ d.attr.typ = 9) ∧ tsel = sel) ∨
    (d.attr.typ = 5 ∧ max s.level (rpl sel) ≤ d.dpl ∧ d.attr.p = true ∧ tsel = d.gateSel))

end Sys2Proof.Machine

/-- A far JMP completes: outside Protected mode and in SMM CS is loaded without a descriptor and EIP becomes the offset, which lies
within the limit of CS; in Protected mode CS is loaded from the descriptor of a usable code segment, the level unchanged
and the Accessed bit set; to a TSS or through a task gate it switches tasks, and IRET with NT set switches back to the task that the
TSS links to, which unmasks NMI; a call gate is refused (R340, R459, R640, R643, R645, R646, R664). The model's choices are a null LDT
selector in a TSS and the privilege of its conforming segments (logs 52 and 10), the hidden part of a null register (log 9), that a
16-bit TSS leaves FS and GS null, keeps CR3 and zero-extends EIP and EFLAGS (log 11), and that two bytes of each selector are stored and
those above them stay (log 34). -/
def Obligations.FarJumpResult : Prop :=
  ∀ (i : Instr) (sel : Half) (off : Word) (s : State), FarTarget s i sel off → s.flat = true →
    (flatLoads s → inCode s off = true → ∃ t, exec i s = .next t ∧
      t = { s.advance with
        eip := off, cache := t.cache, draws := t.draws, seg := s.seg.put .cs (flatLoad s s.seg.cs sel),
        bus := branchRecord s t }) ∧
    (descLoads s → ∀ la, nullSel sel = false → s.descAddr sel = some la → codeUsable s sel (descAt s la) off = true →
      ∃ t, exec i s = .next t ∧
        t = { s.advance with
          eip := off, cache := t.cache, draws := t.draws, bus := branchRecord s t, mem := t.mem,
          seg := s.seg.put .cs
            { sel := (sel &&& 0xFFFC) ||| BitVec.ofNat 16 s.level, base := (descAt s la).base,
              limit := (descAt s la).limit,
              attr := { (descAt s la).attr with typ := (descAt s la).attr.typ ||| 1 } } } ∧
        ∀ a, t.mem.read a = if a = s.sysAddr la 5 then s.mem.read a ||| 1 else s.mem.read a) ∧
    (descLoads s → ∀ la, nullSel sel = false → s.descAddr sel = some la →
      (∀ tsel, jumpsTo s sel (descAt s la) tsel → mayEnter .jmp s tsel s.nextEip s.flags →
        ∃ t w, exec i s = .next t ∧ entersTask .jmp s tsel s.nextEip s.flags w ∧
          taskEntered { w with scr := { w.scr with start := s.eip } } t) ∧
      ((descAt s la).attr.s = false → (descAt s la).attr.typ = 4 ∨ (descAt s la).attr.typ = 12 → exec i s = .refused .callGate)) ∧
    ∀ p, descLoads s → s.flags.nt = true → mayEnter .iret s (s.tssHalf 0) s.nextEip s.flags →
      ∃ t w, exec (.iret p) s = .next t ∧ entersTask .iret s (s.tssHalf 0) s.nextEip s.flags w ∧
        taskEntered { w with intr := { w.intr with nmiMasked := false }, scr := { w.scr with start := s.eip } } t

namespace Sys2Proof.Machine

/-! ### Interrupts and exceptions -/

/-- CLI and STI act on VIF (R331): a Virtual-8086 program under VME, a level-3 program under PVI. -/
def virtualIf (s : State) : Prop :=
  (s.mode = .v86 ∧ s.vme = true) ∨ (s.mode = .prot ∧ s.pvi = true ∧ s.level = 3)

end Sys2Proof.Machine

/-- CLI and STI complete: on IF in Real mode and SMM and where the level is within IOPL, else on VIF where it is virtual; else, and where STI would
set VIF with VIP set, they raise GP(0). STI holds INTR off for one instruction if IF was clear (R331 to R333). -/
def Obligations.InterruptFlagResult : Prop :=
  ∀ (p : Pfx) (s : State),
    (s.pe = false ∨ s.smm.active = true ∨ s.level ≤ s.flags.iopl.toNat →
      exec (.cli p) s = .next { s.advance with flags := { s.flags with ifl := false } } ∧
      exec (.sti p) s = .next { s.advance with
        flags := { s.flags with ifl := true },
        intr := if s.flags.ifl then s.intr else { s.intr with shadow := .sti } }) ∧
    (s.pe = true → s.smm.active = false → s.flags.iopl.toNat < s.level → virtualIf s →
      exec (.cli p) s = .next { s.advance with flags := { s.flags with vif := false } } ∧
      exec (.sti p) s = if s.flags.vip then takeException (Exc.fault vGP (some 0)) s s.advance
        else .next { s.advance with flags := { s.flags with vif := true } }) ∧
    (s.pe = true → s.smm.active = false → s.flags.iopl.toNat < s.level → ¬ virtualIf s →
      exec (.cli p) s = takeException (Exc.fault vGP (some 0)) s s.advance ∧
      exec (.sti p) s = takeException (Exc.fault vGP (some 0)) s s.advance)

namespace Sys2Proof.Machine

/-- What leads into a handler: INT n, INT3, a fault, or an event between two instructions. -/
inductive EntryWay
  | int | int3 | fault
  | event (kind : EventKind)
  deriving DecidableEq, Repr

/-- The kind of an entry (R620). -/
def EntryWay.kind : EntryWay → EventKind
  | .int => .software
  | .int3 => .software
  | .fault => .exception
  | .event k => k

/-- An entry into a handler: what leads to it, its vector and error code, and the return offset and the flags it saves. -/
structure EntryForm where
  way : EntryWay
  vec : Byte
  err : Option Half
  ret : Word
  img : Flags
  deriving DecidableEq, Repr

/-- INT n or INT3 asks for the entry. -/
def EntryForm.soft (e : EntryForm) : Bool := e.way == .int || e.way == .int3

/-- An event with no error code at a boundary saves the current EIP and flags with RF clear (R620). -/
def boundaryEvent (s : State) (vec : Byte) (kind : EventKind) : Event :=
  { vec := vec, kind := kind, err := none, ret := s.eip, img := { s.flags with rf := false } }

/-- The ways into a handler (R336, R343, R620): INT n and INT3, which save the address of the next instruction; a fault raised
before the instruction has stored anything, which saves its own address and RF as 1; an interrupt or trap between two
instructions. -/
inductive Enters (s : State) : Host.Outcome State Fault Refusal → EntryForm → Prop
  | int (p : Pfx) (n : Byte) : Enters s (exec (.intIb p n) s) ⟨.int, n, none, s.nextEip, { s.flags with rf := false }⟩
  | int3 (p : Pfx) : Enters s (exec (.int3 p) s) ⟨.int3, 3, none, s.nextEip, { s.flags with rf := false }⟩
  | fault (v : Byte) (err : Option Half) (u : State) : u.mem = s.mem → u.cache.foreign = false →
      Enters s (takeException (Exc.fault v err) s u) ⟨.fault, v, err, s.eip, { s.flags with rf := true }⟩
  | event (v : Byte) (k : EventKind) : k ≠ .software →
      Enters s (takeEvent 8 (boundaryEvent s v k) s) ⟨.event k, v, none, s.eip, { s.flags with rf := false }⟩

/-- What the step notes after an entry: the start of the instruction and that TF does not trap after INT n; that the
instruction ended in an exception; or nothing. -/
def entryScratch (s : State) (e : EntryForm) : Scratch :=
  match e.way with
  | .int => { s.scr with start := s.eip, tf := false }
  | .int3 => { s.scr with start := s.eip, tf := false }
  | .fault => { s.scr with noTrap := true }
  | .event _ => s.scr

/-- The interrupt logic after an entry: until the first instruction of the handler of a fault or an interrupt is fetched, another
exception is a second one (R628). -/
def entryIntr (s : State) (e : EntryForm) : Intr :=
  if e.soft then s.intr else { s.intr with handling := some { vec := e.vec, kind := e.way.kind, ret := e.ret } }

/-- The bus after an entry: INT n is a taken branch; whether a fault or an interrupt sends branch messages is open (R850). -/
def entryBus (s t : State) (e : EntryForm) : Prop :=
  if e.soft then t.bus = branchRecord s t else s.tracing = false → t.bus = s.bus

/-- The offset in the TSS of the byte with the redirection bit of a vector (R338). -/
def State.redirectByte (s : State) (n : Byte) : Word := (s.tssHalf 0x66).setWidth 32 - 32 + BitVec.ofNat 32 (n.toNat / 8)

/-- The redirection bit of a vector lies in the TSS (R338). -/
def State.mayRedirect (s : State) (n : Byte) : Bool :=
  bigTss s.sys.tr.attr.typ && decide ((s.redirectByte n).toNat ≤ s.sys.tr.byteLimit)

/-- The redirection bit of a vector (R338). -/
def State.redirectBit (s : State) (n : Byte) : Bool :=
  (s.mem.read (s.sysAddr (s.sys.tr.base + s.redirectByte n) 0)).getLsbD (n.toNat % 8)

/-- A Virtual-8086 program. -/
def isV86 (s : State) : Prop := s.mode = .v86 ∧ s.smm.active = false

/-- INT n of a Virtual-8086 program is not redirected and not trapped: IOPL is 3, and VME is off or the bit of the vector is set
(R336, R338). -/
def notRedirected (s : State) (n : Byte) : Prop :=
  s.flags.iopl = 3 ∧ (s.vme = false ∨ (s.mayRedirect n = true ∧ s.redirectBit n = true))

end Sys2Proof.Machine

/-- With PE clear, and in SMM, INT n, INT3, every fault and every interrupt enter their handler: FLAGS, CS and IP are pushed,
IF, TF, AC and RF cleared, and CS:IP taken from the vector table, read after the pushes; an error code is not pushed. Under VME INT n of
a Virtual-8086 program whose redirection bit is clear enters its handler through the table at address 0: FLAGS, with VIF for IF and IOPL
shown as 3 below IOPL 3, CS and IP are pushed, TF and IF, or below IOPL 3 VIF, cleared. INT n raises GP(0) below IOPL 3 where it is not
redirected, and where the TSS has no bit for it; that a 16-bit TSS has none is the model's choice, log 52 (R336, R338, R339, R620 to
R622). -/
def Obligations.EntryThroughVectorTable : Prop :=
  (∀ (o : Host.Outcome State Fault Refusal) (e : EntryForm) (s : State), Enters s o e → s.flat = true →
    (s.pe = false ∨ s.smm.active = true) → 4 * e.vec.toNat + 3 ≤ s.sys.idtr.limit.toNat →
    (∀ k, 1 ≤ k → k ≤ 3 → s.may .ss (s.pushOff s.gpr.esp (2 * k)) 2 2 true = true) →
    ∃ t, o = .next t ∧
      StoredAll s t .ss [(s.pushOff s.gpr.esp 2, toLe 2 s.flags.toWord), (s.pushOff s.gpr.esp 4, toLe 2 s.seg.cs.sel),
        (s.pushOff s.gpr.esp 6, toLe 2 e.ret)] ∧
      let vec : Word := ofLe 32 (t.sysBytes (s.sys.idtr.base + BitVec.ofNat 32 (4 * e.vec.toNat)) 4)
      t = { s with
        eip := vec &&& 0xFFFF, seg := s.seg.put .cs (flatLoad s s.seg.cs (vec.extractLsb' 16 16)),
        flags := { s.flags with ifl := false, tf := false, ac := false, rf := false },
        gpr := s.gpr.put .esp (s.pushed 6), scr := entryScratch s e, intr := entryIntr s e,
        mem := t.mem, cache := t.cache, draws := t.draws, bus := t.bus } ∧
      entryBus s t e) ∧
  ∀ (p : Pfx) (n : Byte) (s : State), s.flat = true → isV86 s →
    (s.vme = true → s.mayRedirect n = true → s.redirectBit n = false →
      (∀ k, 1 ≤ k → k ≤ 3 → s.may .ss (s.pushOff s.gpr.esp (2 * k)) 2 2 true = true) →
      ∃ t, exec (.intIb p n) s = .next t ∧
        StoredAll s t .ss [(s.pushOff s.gpr.esp 2, toLe 2 (pushedFlags s .o16)), (s.pushOff s.gpr.esp 4, toLe 2 s.seg.cs.sel),
          (s.pushOff s.gpr.esp 6, toLe 2 s.nextEip)] ∧
        let vec : Word := ofLe 32 (t.sysBytes (BitVec.ofNat 32 (4 * n.toNat)) 4)
        t = { s with
          eip := vec &&& 0xFFFF, seg := s.seg.put .cs (v86Seg (vec >>> 16)),
          flags := if s.flags.iopl = 3 then { s.flags with ifl := false, tf := false } else { s.flags with vif := false, tf := false },
          gpr := s.gpr.put .esp (s.pushed 6), scr := { s.scr with start := s.eip, tf := false },
          mem := t.mem, cache := t.cache, draws := t.draws, bus := branchRecord s t }) ∧
    (s.vme = true → s.mayRedirect n = false → raises (.intIb p n) s vGP 0) ∧
    (s.flags.iopl ≠ 3 → (s.vme = false ∨ (s.mayRedirect n = true ∧ s.redirectBit n = true)) → raises (.intIb p n) s vGP 0)

namespace Sys2Proof.Machine

/-- The gate of a vector in the IDT, as the table holds it (R623, R642). -/
def gateOf (s : State) (vec : Byte) : Desc := descAt s (s.sys.idtr.base + BitVec.ofNat 32 (8 * vec.toNat))

/-- An interrupt or trap gate that the entry may use (R623, R642). -/
def gateUsable (s : State) (e : EntryForm) (g : Desc) : Bool :=
  !g.attr.s && (g.sysType == 6 || g.sysType == 7 || g.sysType == 14 || g.sysType == 15) && g.attr.p
    && (!e.soft || decide (s.level ≤ g.dpl)) && !nullSel g.gateSel

/-- The handler's code segment keeps the level: present, conforming or of the same level, and it holds the offset (R623). -/
def handlerUsable (s : State) (d : Desc) (off : Word) : Bool :=
  d.attr.isCode && d.attr.p && (if d.attr.conforming then decide (d.dpl ≤ s.level) else d.dpl == s.level)
    && decide (off.toNat ≤ d.byteLimit)

/-- The bytes of an entry's frame by the width of its gate, the first pushed first (R623). -/
def frameItems (s : State) (e : EntryForm) (n : Nat) : List (List Byte) :=
  [toLe n e.img.toWord, toLe n s.seg.cs.sel, toLe n e.ret] ++ (match e.err with | none => [] | some c => [toLe n c])

/-- Each item of a frame with the offset it is pushed to. -/
def frameAt (s : State) (n : Nat) (its : List (List Byte)) : List (Word × List Byte) :=
  its.zipIdx.map fun x => (s.pushOff s.gpr.esp (n * (x.2 + 1)), x.1)

/-- What precedes the frame on the stack of an inner level: the old stack pointer, and from Virtual-8086 mode the data segment
registers (R624, R625). -/
def outerItems (s : State) (n : Nat) : List (List Byte) :=
  (if s.mode = .v86 then [toLe n s.seg.gs.sel, toLe n s.seg.fs.sel, toLe n s.seg.ds.sel, toLe n s.seg.es.sel] else []) ++
    [toLe n s.seg.ss.sel, toLe n s.gpr.esp]

/-- The TSS holds a stack for a level (R624). -/
def tssHolds (s : State) (new : Nat) : Bool :=
  decide ((if bigTss s.sys.tr.attr.typ then 4 + 8 * new + 5 else 2 + 4 * new + 3) ≤ s.sys.tr.byteLimit)

/-- The stack pointer of a level in the TSS (R624, R640). -/
def tssEsp (s : State) (new : Nat) : Word :=
  if bigTss s.sys.tr.attr.typ then s.tssField s.sys.tr.base (4 + 8 * new) 4 32 else s.tssField s.sys.tr.base (2 + 4 * new) 2 32

/-- The stack selector of a level in the TSS (R624, R640). -/
def tssSs (s : State) (new : Nat) : Half :=
  s.tssField s.sys.tr.base (if bigTss s.sys.tr.attr.typ then 4 + 8 * new + 4 else 2 + 4 * new + 2) 2 16

/-- A stack segment descriptor may be loaded for a level (R340, R624, R641). -/
def stackUsable (sel : Half) (d : Desc) (level : Nat) : Bool :=
  !nullSel sel && d.attr.writable && d.dpl == level && rpl sel == level && d.attr.p

/-- The state on the stack of an inner level, before the frame is pushed. -/
def onInner (s : State) (new : Nat) (sd : Desc) : State :=
  { s with
    seg := s.seg.put .ss (loaded (tssSs s new) sd), gpr := s.gpr.put .esp (tssEsp s new), cpl := BitVec.ofNat 2 new,
    flags := { s.flags with vm := false } }

/-- The handler's code segment is of an inner level: present, non-conforming, of level 0 from Virtual-8086 mode, and it holds the
offset (R624, R625). -/
def innerUsable (s : State) (d : Desc) (off : Word) : Bool :=
  d.attr.isCode && d.attr.p && !d.attr.conforming && decide (d.dpl < s.level) && (s.mode != .v86 || d.dpl == 0)
    && decide (off.toNat ≤ d.byteLimit)

/-- The segment registers after an entry to an inner level: from Virtual-8086 mode the data segment registers are null (R624,
R625). -/
def innerSegs (s : State) (cs ss : SegReg) : SegFile :=
  if s.mode = .v86 then
    { es := SegReg.null 0, cs := cs, ss := ss, ds := SegReg.null 0, fs := SegReg.null 0, gs := SegReg.null 0 }
  else { s.seg with cs := cs, ss := ss }

/-- A task gate that the entry may use (R623, R626, R642). -/
def taskGate (s : State) (e : EntryForm) (g : Desc) : Bool :=
  !g.attr.s && g.sysType == 5 && g.attr.p && (!e.soft || decide (s.level ≤ g.dpl))

end Sys2Proof.Machine

/-- In Protected mode outside SMM INT n, INT3, every fault and every interrupt enter their handler through an interrupt or trap gate of
the same level: EFLAGS, CS, EIP and an error code are pushed at the gate's width, TF, NT, VM and RF cleared, IF too by an interrupt
gate, CS:EIP taken from the gate and the Accessed bit set. Through a gate of an inner level, and from Virtual-8086 mode, the stack is that
of the TSS for the level: SS and ESP are pushed first, and from Virtual-8086 mode before them GS, FS, DS and ES, which become null.
Through a task gate they switch tasks, with nesting, and push an error code on the new task's stack (R336, R338, R619, R620, R623 to R626,
R640, R645). That the halves above a selector and an error code are pushed as zeros is the model's choice (log 24), and so are the hidden
part of a null register and what a task switch loads (logs 9, 10 and 52), for a 16-bit TSS null FS and GS, CR3 kept, EIP and EFLAGS
zero-extended (log 11), and that the bytes above each selector it stores stay (log 34). -/
def Obligations.EntryThroughGate : Prop :=
  (∀ (o : Host.Outcome State Fault Refusal) (e : EntryForm) (s : State) (la : Word), Enters s o e → s.flat = true →
    descLoads s → 8 * e.vec.toNat + 7 ≤ s.sys.idtr.limit.toNat →
    gateUsable s e (gateOf s e.vec) = true → s.descAddr (gateOf s e.vec).gateSel = some la →
    handlerUsable s (descAt s la) (gateOf s e.vec).gateOff = true →
    let g := gateOf s e.vec
    let d := descAt s la
    let n := if g.attr.typ.getLsbD 3 then 4 else 2
    let its := frameItems s e n
    (∀ k, 1 ≤ k → k ≤ its.length → s.may .ss (s.pushOff s.gpr.esp (n * k)) n n true = true) →
    ∃ t m, o = .next t ∧
      t = { s with
        eip := g.gateOff, gpr := s.gpr.put .esp (s.pushed (n * its.length)),
        seg := s.seg.put .cs
          { sel := (g.gateSel &&& 0xFFFC) ||| BitVec.ofNat 16 s.level, base := d.base, limit := d.limit,
            attr := { d.attr with typ := d.attr.typ ||| 1 } },
        flags := { s.flags with
          tf := false, nt := false, vm := false, rf := false, ifl := g.attr.typ.getLsbD 0 && s.flags.ifl },
        scr := entryScratch s e, intr := entryIntr s e, mem := t.mem, cache := t.cache, draws := t.draws, bus := t.bus } ∧
      entryBus s t e ∧ StoredAll s { s with mem := m } .ss (frameAt s n its) ∧
      ∀ a, t.mem.read a = if a = s.sysAddr la 5 ∧ d.attr.typ.getLsbD 0 = false then m.read a ||| 1 else m.read a) ∧
  (∀ (o : Host.Outcome State Fault Refusal) (e : EntryForm) (s : State) (la la2 : Word), Enters s o e → s.flat = true →
    (descLoads s ∨ (isV86 s ∧ (e.way = .int → notRedirected s e.vec))) → 8 * e.vec.toNat + 7 ≤ s.sys.idtr.limit.toNat →
    gateUsable s e (gateOf s e.vec) = true → s.descAddr (gateOf s e.vec).gateSel = some la →
    innerUsable s (descAt s la) (gateOf s e.vec).gateOff = true →
    let g := gateOf s e.vec
    let d := descAt s la
    let sd := descAt s la2
    let n := if g.attr.typ.getLsbD 3 then 4 else 2
    let its := outerItems s n ++ frameItems s e n
    let u := onInner s d.dpl sd
    tssHolds s d.dpl = true → s.descAddr (tssSs s d.dpl) = some la2 → stackUsable (tssSs s d.dpl) sd d.dpl = true →
    (∀ k, 1 ≤ k → k ≤ its.length → u.seg.ss.inLimit (u.pushOff u.gpr.esp (n * k)) n = true) →
    ∃ t m, o = .next t ∧
      t = { s with
        eip := g.gateOff, gpr := s.gpr.put .esp (u.pushed (n * its.length)), cpl := BitVec.ofNat 2 d.dpl,
        seg := innerSegs s (loaded ((g.gateSel &&& 0xFFFC) ||| BitVec.ofNat 16 d.dpl) d) u.seg.ss,
        flags := { s.flags with
          tf := false, nt := false, vm := false, rf := false, ifl := g.attr.typ.getLsbD 0 && s.flags.ifl },
        scr := entryScratch s e, intr := entryIntr s e, mem := t.mem, cache := t.cache, draws := t.draws, bus := t.bus } ∧
      entryBus s t e ∧ StoredAll u { s with mem := m } .ss (frameAt u n its) ∧
      ∀ a, t.mem.read a =
        if (a = s.sysAddr la 5 ∧ d.attr.typ.getLsbD 0 = false) ∨ (a = s.sysAddr la2 5 ∧ sd.attr.typ.getLsbD 0 = false) then
          m.read a ||| 1
        else m.read a) ∧
  ∀ (o : Host.Outcome State Fault Refusal) (e : EntryForm) (s : State), Enters s o e → s.flat = true →
    (descLoads s ∨ (isV86 s ∧ (e.way = .int → notRedirected s e.vec))) → 8 * e.vec.toNat + 7 ≤ s.sys.idtr.limit.toNat →
    taskGate s e (gateOf s e.vec) = true →
    let tsel := (gateOf s e.vec).gateSel
    mayEnter .interrupt s tsel e.ret e.img →
    let n (w : State) : Nat := if bigTss w.sys.tr.attr.typ then 4 else 2
    (∀ w, entersTask .interrupt s tsel e.ret e.img w → w.eip.toNat ≤ w.seg.cs.byteLimit ∧
      (e.err.isSome = true → w.may .ss (w.pushOff w.gpr.esp (n w)) (n w) (n w) true = true)) →
    ∃ t w, o = .next t ∧ entersTask .interrupt s tsel e.ret e.img w ∧ entryBus s t e ∧
      t = { w with
        gpr := t.gpr, intr := entryIntr w e, scr := { entryScratch s e with rfLoaded := true }, mem := t.mem, cache := t.cache,
        draws := t.draws, bus := t.bus } ∧
      match e.err with
      | none => t.gpr = w.gpr ∧ SameBytes w t
      | some c => t.gpr = w.gpr.put .esp (w.pushed (n w)) ∧ Stored w t .ss (w.pushOff w.gpr.esp (n w)) (toLe (n w) c)

/-- Opcode 0F FF raises an invalid-opcode fault in every mode and at every level, at its own address; every exception that
an instruction raises ends in a next state: its handler, that of a second exception, or Shutdown (R313, R628, R630). -/
def Obligations.ExceptionsAreDelivered : Prop :=
  (∀ (p : Pfx) (s : State), exec (.illegal0FFF p) s = takeException (Exc.fault 6 none) s s.advance ∧
    ∃ t, exec (.illegal0FFF p) s = .next t) ∧
  ∀ (x : Exc) (s u : State), ∃ t, takeException x s u = .next t

namespace Sys2Proof.Machine

/-- The contributory exceptions: divide error, invalid TSS, segment not present, stack, general protection. -/
def contributory (v : Byte) : Prop := v = 0 ∨ v = 10 ∨ v = 11 ∨ v = 12 ∨ v = 13

end Sys2Proof.Machine

/-- A second exception during the delivery of a first: a double fault after two contributory ones, or after a page fault and a
contributory one or page fault; Shutdown with its bus cycle in place of a contributory exception or page fault while a
double fault is delivered; else, and whenever the first is an interrupt, the second is delivered itself (R628, R630). That RF in the
image the double fault saves is a free value is the model's choice (log 31). -/
def Obligations.SecondException : Prop :=
  ∀ (n : Nat) (e : Event) (x : Exc) (s u : State), deliver e s = .error (.exc x) u →
    let t := excState x s u
    let df := { e with vec := 8, kind := .exception, err := some 0, img := { e.img with rf := Config.freeBit t.draws } : Event }
    (e.kind = .exception → e.vec ≠ 8 → x.vec ≠ 8 →
      (contributory e.vec ∧ contributory x.vec) ∨ (e.vec = 14 ∧ (contributory x.vec ∨ x.vec = 14)) →
      takeEvent (n + 1) e s = takeEvent n df { t with draws := t.draws + 1 }) ∧
    (e.kind = .exception → e.vec = 8 → contributory x.vec ∨ x.vec = 14 →
      takeEvent (n + 1) e s = .next { t with
        clock := .shutdown, bus := .special 0xFE 0 0 :: t.bus, scr := { t.scr with noTrap := true },
        cache := { t.cache with prefetch := [], marks := [], events := afterCycles t.cache.events [.special 0xFE 0 0] },
        intr := { t.intr with dbTrap := false, shadow := .none, handling := none } }) ∧
    (x.vec ≠ 8 → ¬ (contributory e.vec ∧ contributory x.vec) →
      ¬ ((e.vec = 14 ∨ e.vec = 8) ∧ (contributory x.vec ∨ x.vec = 14)) →
      takeEvent (n + 1) e s = takeEvent n (excEvent x t) t) ∧
    (e.kind ≠ .exception → takeEvent (n + 1) e s = takeEvent n (excEvent x t) t)

namespace Sys2Proof.Machine

/-- The IRET is one of a Virtual-8086 program; a handler in SMM returns as in Real mode (R340; log 51). -/
def v86Return (s : State) : Bool := s.mode == .v86 && !s.smm.active

/-- IRET is not trapped (R340). -/
def returnAllowed (s : State) (o : OSz) : Bool := !v86Return s || flagsAllowed s o

/-- The flags an IRET without descriptors leaves from an image (R340): RF, AC and ID for IRETD, IOPL outside Virtual-8086
mode; VM, VIF and VIP never. -/
def returnedFlags (s : State) (o : OSz) (f : Flags) : Flags :=
  { s.flags with
    cf := f.cf, pf := f.pf, af := f.af, zf := f.zf, sf := f.sf, tf := f.tf, ifl := f.ifl, df := f.df, of := f.of, nt := f.nt,
    iopl := if v86Return s then s.flags.iopl else f.iopl,
    rf := if o = .o32 then f.rf else s.flags.rf, ac := if o = .o32 then f.ac else s.flags.ac,
    id := if o = .o32 then f.id else s.flags.id }

/-- The flags an IRET within Protected mode leaves: IF where the level is within IOPL, IOPL at level 0, and for IRETD RF,
AC and ID, with VIF and VIP at level 0 (R340). -/
def returnedProt (s : State) (o : OSz) (f : Flags) : Flags :=
  let old := s.flags
  { cf := f.cf, pf := f.pf, af := f.af, zf := f.zf, sf := f.sf, tf := f.tf, df := f.df, of := f.of, nt := f.nt,
    ifl := if s.level ≤ old.iopl.toNat then f.ifl else old.ifl, iopl := if s.level = 0 then f.iopl else old.iopl,
    rf := if o = .o32 then f.rf else old.rf, ac := if o = .o32 then f.ac else old.ac,
    id := if o = .o32 then f.id else old.id,
    vif := if s.level = 0 ∧ o = .o32 then f.vif else old.vif, vip := if s.level = 0 ∧ o = .o32 then f.vip else old.vip,
    vm := old.vm }

/-- The items IRET pops: offset, selector, flags; then the stack pointer, and the other selectors. -/
def State.retItem (s : State) (o : OSz) (k : Nat) : Word := s.value .ss (s.stackOff (k * o.bytes)) o.bytes 32

/-- The three items may be read. -/
def State.mayReturn (s : State) (o : OSz) : Prop :=
  ∀ k, k < 3 → s.may .ss (s.stackOff (k * o.bytes)) o.bytes o.bytes false = true

end Sys2Proof.Machine

/-- IRET completes outside Protected mode and in SMM: EIP, CS and the flags are popped, NMI is unmasked. A Virtual-8086 program below
IOPL 3 has the 16-bit form under VME alone, which puts IF of the image into VIF, and raises GP(0) where the image has TF set, or IF
with VIP set; the other forms raise GP(0) there (R340, R664). That a handler in SMM that has set CR0.PE returns as in Real mode is the
model's choice (log 51). -/
def Obligations.InterruptReturnFlat : Prop :=
  ∀ (p : Pfx) (s : State), s.flat = true → flatLoads s →
    (returnAllowed s p.osz = false → raises (.iret p) s vGP 0) ∧
    (returnAllowed s p.osz = true → s.mayReturn p.osz →
      let f := Flags.ofWord (s.retItem p.osz 2)
      if (v86Return s ∧ s.flags.iopl ≠ 3) ∧ vmeBlocked s f = true then
        ∃ c k, exec (.iret p) s = takeException (Exc.fault vGP (some 0)) s ((s.advance.setCache c).setDraws k)
      else ∃ t, exec (.iret p) s = .next t ∧
        t = { s with
          eip := s.retItem p.osz 0, seg := s.seg.put .cs (flatLoad s s.seg.cs ((s.retItem p.osz 1).setWidth 16)),
          flags := if v86Return s ∧ s.flags.iopl ≠ 3 then vmeFlags s f else returnedFlags s p.osz f,
          gpr := s.gpr.put .esp (s.popped (3 * p.osz.bytes)), intr := { s.intr with nmiMasked := false },
          scr := { s.scr with start := s.eip, rfLoaded := p.osz == .o32 },
          cache := t.cache, draws := t.draws, bus := branchRecord s t })

namespace Sys2Proof.Machine

/-- A code segment descriptor may be returned to, at the same level or at an outer one (R340, R641; its DPL, log 10). -/
def returnUsable (s : State) (sel : Half) (d : Desc) (off : Word) : Bool :=
  !nullSel sel && decide (s.level ≤ rpl sel) && d.attr.isCode
    && (if d.attr.conforming then decide (d.dpl ≤ rpl sel) else d.dpl == rpl sel) && d.attr.p
    && decide (off.toNat ≤ d.byteLimit)

/-- A data segment register after a return to an outer level: null if it holds a data or non-conforming code segment that the
level may not use (R340; the hidden part, log 9). -/
def keptData (level : Nat) (r : SegReg) : SegReg :=
  if (r.attr.isData = true ∨ (r.attr.isCode = true ∧ r.attr.conforming = false)) ∧ r.attr.dpl.toNat < level then SegReg.null 0
  else r

/-- What every return in Protected mode leaves: NMI is unmasked (R340, R664); the caches, the draws and the bus record. -/
def returned (s t : State) (o : OSz) : State :=
  { s with
    intr := { s.intr with nmiMasked := false }, scr := { s.scr with start := s.eip, rfLoaded := o == .o32 }, mem := t.mem,
    cache := t.cache, draws := t.draws, bus := branchRecord s t }

end Sys2Proof.Machine

/-- IRET with NT clear completes in Protected mode outside SMM. To the same level: EIP, CS and the flags the level may write are
popped. To an outer level: SS and the stack pointer too, and the data segment registers that the level may not use become null. The
model's choices are that a 16-bit operand size leaves the upper half of ESP, the DPL of a code segment that may be returned to (log
10), and that a register becomes null with a hidden part of zeros (log 9). IRETD at level 0 with VM set in the image: to Virtual-8086 mode, with every
flag, the stack pointer and the six segment registers from the stack. The Accessed bits are set, and NMI is unmasked (R340,
R664). -/
def Obligations.InterruptReturnProtected : Prop :=
  ∀ (p : Pfx) (la la2 : Word) (s : State), s.flat = true → descLoads s → s.flags.nt = false → s.mayReturn p.osz →
    let f := Flags.ofWord (s.retItem p.osz 2)
    let sel : Half := (s.retItem p.osz 1).setWidth 16
    let ss : Half := (s.retItem p.osz 4).setWidth 16
    let may (k : Nat) : Prop := s.may .ss (s.stackOff (k * p.osz.bytes)) p.osz.bytes p.osz.bytes false = true
    ((f.vm = true → s.level ≠ 0 ∨ p.osz = .o16) → s.descAddr sel = some la →
      returnUsable s sel (descAt s la) (s.retItem p.osz 0) = true →
      (rpl sel = s.level → ∃ t, exec (.iret p) s = .next t ∧
        t = { returned s t p.osz with
          eip := s.retItem p.osz 0, flags := returnedProt s p.osz f, seg := s.seg.put .cs (loaded sel (descAt s la)),
          gpr := s.gpr.put .esp (s.popped (3 * p.osz.bytes)) } ∧
        accessedAt s t [la]) ∧
      (rpl sel ≠ s.level → may 3 → may 4 → s.descAddr ss = some la2 → stackUsable ss (descAt s la2) (rpl sel) = true →
        ∃ t, exec (.iret p) s = .next t ∧
          t = { returned s t p.osz with
            eip := s.retItem p.osz 0, flags := returnedProt s p.osz f, cpl := sel.setWidth 2,
            seg := { cs := loaded sel (descAt s la), ss := loaded ss (descAt s la2), es := keptData (rpl sel) s.seg.es,
                     ds := keptData (rpl sel) s.seg.ds, fs := keptData (rpl sel) s.seg.fs,
                     gs := keptData (rpl sel) s.seg.gs },
            gpr := s.gpr.put .esp (match p.osz with
              | .o16 => s.gpr.esp &&& 0xFFFF0000 ||| s.retItem .o16 3
              | .o32 => s.retItem .o32 3) } ∧
          accessedAt s t [la, la2])) ∧
    (f.vm = true → s.level = 0 → p.osz = .o32 → (∀ k, 3 ≤ k → k < 9 → may k) →
      ∃ t, exec (.iret p) s = .next t ∧
        t = { returned s t p.osz with
          mem := s.mem, eip := s.retItem p.osz 0 &&& 0xFFFF, flags := f, cpl := 3,
          gpr := s.gpr.put .esp (s.retItem p.osz 3),
          seg := { cs := v86Seg (s.retItem p.osz 1), ss := v86Seg (s.retItem p.osz 4), es := v86Seg (s.retItem p.osz 5),
                   ds := v86Seg (s.retItem p.osz 6), fs := v86Seg (s.retItem p.osz 7), gs := v86Seg (s.retItem p.osz 8) } })

namespace Sys2Proof.Machine

/-! ### System instructions -/

/-- The instructions that only level 0 may execute (R480), LLDT and LTR apart. -/
inductive IsPrivileged : Instr → Prop
  | hlt {p} : IsPrivileged (.hlt p)
  | invd {p} : IsPrivileged (.invd p)
  | wbinvd {p} : IsPrivileged (.wbinvd p)
  | invlpgM {p m} : IsPrivileged (.invlpgM p m)
  | readCr {i x} : IsReadCr i x → IsPrivileged i
  | writeCr {i x} : IsWriteCr i x → IsPrivileged i
  | movRDr {p r n} : IsPrivileged (.movRDr p r n)
  | movDrR {p n r} : IsPrivileged (.movDrR p n r)
  | lgdtMs {p m} : IsPrivileged (.lgdtMs p m)
  | lidtMs {p m} : IsPrivileged (.lidtMs p m)
  | rdmsr {p} : IsPrivileged (.rdmsr p)
  | wrmsr {p} : IsPrivileged (.wrmsr p)

end Sys2Proof.Machine

/-- Below level 0 a privileged instruction raises GP(0) and does nothing else; LLDT and LTR do so in Protected mode, and
outside it they are invalid (R480, R502, R503). -/
def Obligations.PrivilegedRefused : Prop :=
  (∀ (i : Instr) (s : State), IsPrivileged i → s.level ≠ 0 →
    exec i s = takeException (Exc.fault vGP (some 0)) s s.advance) ∧
  ∀ (p : Pfx) (rm : RM) (i : Instr) (s : State), (i = .lldtEw p rm ∨ i = .ltrEw p rm) →
    (s.mode = .prot → s.level ≠ 0 → exec i s = takeException (Exc.fault vGP (some 0)) s s.advance) ∧
    (s.mode ≠ .prot → exec i s = takeException (Exc.fault vUD none) s s.advance)

namespace Sys2Proof.Machine

/-- A TLB entry maps a linear address. -/
def TlbEntry.maps (e : TlbEntry) (la : Word) : Prop :=
  e.page = la.toNat / (if e.big then 4194304 else 4096)

/-- Both caches hold the lines they held, in the same state, whatever became of their linear tags. -/
def SameLines (s t : State) : Prop :=
  t.cache.dlines.map (fun l => (l.line, l.way, l.mesi, l.back)) = s.cache.dlines.map (fun l => (l.line, l.way, l.mesi, l.back)) ∧
  t.cache.ilines.map (fun l => (l.line, l.way, l.bp, l.code)) = s.cache.ilines.map (fun l => (l.line, l.way, l.bp, l.code))

/-- No line has a linear tag in the 4-Kbyte page of an address. -/
def Caches.noTag (c : Caches) (la : Word) : Prop :=
  (∀ l ∈ c.dlines, ∀ g, l.ltag = some g → g.la * 32 / 4096 ≠ la.toNat / 4096) ∧
  ∀ l ∈ c.ilines, ∀ g, l.ltag = some g → g.la * 32 / 4096 ≠ la.toNat / 4096

/-- The bytes main memory holds in place of a cached line's cover an address. -/
def DLine.hides (l : DLine) (bs : List Byte) (a : Nat) : Prop :=
  l.back = some bs ∧ 32 * l.line ≤ a ∧ a < 32 * l.line + bs.length

end Sys2Proof.Machine

/-- HLT, INVD, WBINVD and INVLPG complete at level 0: HLT halts after its special cycle; INVD and WBINVD leave both caches
empty, WBINVD with memory as the processor sees it and, where no inquire cycle arrives in the step, every modified line written back by
a cycle of its own, INVD with what main memory held;
INVLPG drops the entries of one page and, which is the model's choice (logs 35 and 47), the linear tags of its cached lines, and
nothing else (R481 to R484). -/
def Obligations.CacheControlResult : Prop :=
  ∀ (p : Pfx) (m : MemOp) (s : State), s.level = 0 →
    exec (.hlt p) s = .next { s.advance with
      clock := .halt, bus := .special 0xFB 0 0 :: s.bus,
      cache := { s.cache with prefetch := [], marks := [], events := afterCycles s.cache.events [.special 0xFB 0 0] } } ∧
    (∃ t, exec (.invd p) s = .next t ∧
      t = { s.advance with
        bus := .special 0xFD 0 0 :: s.bus, mem := t.mem,
        cache := { s.cache with
          dlines := [], ilines := [], foreign := false, prefetch := [], marks := [],
          events := .serial :: afterCycles s.cache.events [.special 0xFD 0 0] } } ∧
      ∀ a, (t.mem.read a = s.mem.read a ∧ ∀ l ∈ s.cache.dlines, ∀ bs, ¬ l.hides bs a) ∨
        ∃ l ∈ s.cache.dlines, ∃ bs, l.hides bs a ∧ t.mem.read a = bs.getD (a - 32 * l.line) 0) ∧
    (s.cache.foreign = false → ∃ t, exec (.wbinvd p) s = .next t ∧
      t = { s.advance with
        bus := .special 0xFD 0 0 :: .special 0xF7 0 0 :: s.bus, draws := t.draws, biu := t.biu,
        cache := { s.cache with
          dlines := [], ilines := [], prefetch := [], marks := [], events := t.cache.events, snoops := t.cache.snoops,
          hit := t.cache.hit, hitm := t.cache.hitm } } ∧
      (s.cache.snoops = [] → t.biu = s.biu ∧ t.cache.snoops = [] ∧ t.cache.hit = s.cache.hit ∧ t.cache.hitm = s.cache.hitm ∧
        ∀ l ∈ s.cache.dlines, l.mesi = .modified → .cycle (writebackCycle s l.line) ∈ t.cache.events)) ∧
    let la := s.linear (segFor p m) (effAddr m s.gpr)
    ∃ t, exec (.invlpgM p m) s = .next t ∧
      t = { s.advance with
        cache := { afterSerial s.cache with tlb := t.cache.tlb, dlines := t.cache.dlines, ilines := t.cache.ilines } } ∧
      (∀ e, e ∈ t.cache.tlb ↔ e ∈ s.cache.tlb ∧ ¬ e.maps la) ∧ SameLines s t ∧ t.cache.noTag la

namespace Sys2Proof.Machine

/-! ### Input and output -/

/-- The offset in the TSS of the permission bit of a port, in bytes (R486). -/
def State.ioBitByte (s : State) (port : Half) : Nat := (s.tssHalf 0x66).toNat + port.toNat / 8

/-- The I/O Permission Bitmap of a 32-bit TSS allows `n` ports: its bytes lie within the TSS and their bits are 0 (R486). -/
def State.bitmapAllows (s : State) (port : Half) (n : Nat) : Prop :=
  s.sys.tr.attr.s = false ∧ (s.sys.tr.attr.typ = 9 ∨ s.sys.tr.attr.typ = 11) ∧
  s.ioBitByte port + 1 ≤ s.sys.tr.byteLimit ∧
  ∀ k, k < n → (s.tssHalf (s.ioBitByte port)).getLsbD (port.toNat % 8 + k) = false

/-- The ports may be used (R486): always in Real mode and SMM, within IOPL in Protected mode, else by the bitmap. -/
def State.mayIo (s : State) (port : Half) (n : Nat) : Prop :=
  s.pe = false ∨ s.smm.active = true ∨ (s.mode = .prot ∧ s.level ≤ s.flags.iopl.toNat) ∨ s.bitmapAllows port n

/-- The bus cycles of an I/O access, the lower first: port, bytes and value; two where it crosses a doubleword (R103, R192). -/
def portParts (port : Half) (n : Nat) (v : Word) : List (Half × Nat × Word) :=
  let k := 4 - port.toNat % 4
  if n ≤ k then [(port, n, v)]
  else [(port, k, BitVec.ofNat 32 (v.toNat % 2 ^ (8 * k))),
        (port + BitVec.ofNat 16 k, n - k, BitVec.ofNat 32 (v.toNat / 2 ^ (8 * k)))]

/-- The I/O instruction as an SMI at its boundary records it (R714). -/
def ioRecord (s : State) (port : Half) (input : Bool) : Smm :=
  { s.smm with lastIo := some { port := port, input := input, eip := s.eip, esi := s.gpr.esi, ecx := s.gpr.ecx, edi := s.gpr.edi } }

end Sys2Proof.Machine

/-- IN and OUT complete where the ports may be used: one I/O cycle, or two where the access crosses a doubleword, the higher
part first in a write, and for IN a value from outside in the accumulator; they raise GP(0) where the ports may not; a range past port FFFFh, which the spec leaves out, is refused (R485 to R487). -/
def Obligations.PortResult : Prop :=
  ∀ (i : Instr) (sz : Size) (q : Port) (s : State), (IsIn i (sz, q) ∨ IsOut i (sz, q)) → s.flat = true →
    (¬ s.mayIo (s.port q) sz.bytes → ∃ u : State, exec i s = takeException (Exc.fault vGP (some 0)) s u ∧ u.mem = s.mem) ∧
    (s.mayIo (s.port q) sz.bytes → 65536 < (s.port q).toNat + sz.bytes → exec i s = .refused .ioPastEnd) ∧
    (s.mayIo (s.port q) sz.bytes → (s.port q).toNat + sz.bytes ≤ 65536 →
      (IsIn i (sz, q) → ∃ t v, exec i s = .next t ∧
        t = { s.advance with
          gpr := s.gpr.putView sz .eax v, smm := ioRecord s (s.port q) true,
          bus := ((portParts (s.port q) sz.bytes (v.setWidth 32)).map fun x => .ioRead x.1 x.2.1 x.2.2 s.cd false).reverse ++ s.bus,
          cache := t.cache, draws := t.draws }) ∧
      (IsOut i (sz, q) → ∃ t, exec i s = .next t ∧
        t = { s.advance with
          smm := ioRecord s (s.port q) false,
          bus := ((portParts (s.port q) sz.bytes ((s.view sz .eax).setWidth 32)).map
            fun x => .ioWrite x.1 x.2.1 x.2.2 s.cd false) ++ s.bus,
          cache := t.cache, draws := t.draws }))

namespace Sys2Proof.Machine

/-! ### Control, debug and model-specific registers -/

/-- The status flags after a move to or from a control register: undefined, but kept by the moves of CR4 (R304, R305,
R490). -/
def crFlags (c : CrName) (old new : Flags) : Prop :=
  if c = .cr4 then new = old else FlagsTo old new none none none none none none

/-- The control registers after a write, or none where it raises GP(0): PG without PE and NW without CD, a reserved bit of
CR4; reserved bits of CR0 and CR3 are ignored (R34, R490 to R493, R304). -/
def crAfter (c : CrName) (old : CtrlRegs) (v : Word) : Option CtrlRegs :=
  match c with
  | .cr0 =>
    if (v.getLsbD 31 = true ∧ v.getLsbD 0 = false) ∨ (v.getLsbD 29 = true ∧ v.getLsbD 30 = false) then none
    else some { old with cr0 := (v &&& 0xE005003F) ||| 0x10 }
  | .cr2 => some { old with cr2 := v }
  | .cr3 => some { old with cr3 := v &&& 0xFFFFF018 }
  | .cr4 => if v &&& 0xFFFFFF20 = 0 then some { old with cr4 := v } else none

/-- The TLB entries a write leaves: all, but none when it changes PG, and only global ones under GPE after a load of CR3
(R128, R490, R493). -/
def tlbKeeps (s : State) (c : CrName) (v : Word) (e : TlbEntry) : Prop :=
  match c with
  | .cr0 => s.pg = v.getLsbD 31
  | .cr2 => True
  | .cr3 => s.gpe = true ∧ e.g = true
  | .cr4 => True

end Sys2Proof.Machine

/-- The moves to and from control registers complete at level 0, but a write raises GP(0) for a value the register does not
take; the TLB loses what the write invalidates (R34, R128, R304, R305, R490 to R494). -/
def Obligations.ControlRegisterResult : Prop :=
  ∀ (i : Instr) (r : Reg) (c : CrName) (s : State), s.level = 0 →
    (IsReadCr i (r, c) → ∃ t, exec i s = .next t ∧ crFlags c s.flags t.flags ∧
      t = { s.advance with gpr := s.gpr.put r (s.cr.named c), flags := t.flags, draws := t.draws }) ∧
    (IsWriteCr i (c, r) →
      match crAfter c s.cr (s.gpr.get r) with
      | none => exec i s = takeException (Exc.fault vGP (some 0)) s s.advance
      | some cr => ∃ t, exec i s = .next t ∧ crFlags c s.flags t.flags ∧
          t = { s.advance with cr := cr, flags := t.flags, draws := t.draws, cache := t.cache } ∧
          (∀ e, e ∈ t.cache.tlb ↔ e ∈ s.cache.tlb ∧ tlbKeeps s c (s.gpr.get r) e) ∧ SameLines s t ∧ t.cache.marks = [])

namespace Sys2Proof.Machine

/-- A debug register by number, 4 and 5 naming DR6 and DR7 (R43). -/
def drOf (d : DebugRegs) (n : BitVec 3) : Word :=
  match n.toNat with
  | 0 => d.dr0 | 1 => d.dr1 | 2 => d.dr2 | 3 => d.dr3 | 4 => d.dr6 | 5 => d.dr7 | 6 => d.dr6 | _ => d.dr7

/-- A debug register after a write: the reserved bits of DR6 and DR7 have fixed values (R41, R42, R496). -/
def drTo (d : DebugRegs) (n : BitVec 3) (v : Word) : DebugRegs :=
  match n.toNat with
  | 0 => { d with dr0 := v }
  | 1 => { d with dr1 := v }
  | 2 => { d with dr2 := v }
  | 3 => { d with dr3 := v }
  | 4 => { d with dr6 := (v ||| 0xFFFF0FF0) &&& 0xFFFFEFFF }
  | 5 => { d with dr7 := (v ||| 0x00000400) &&& 0xFFFF27FF }
  | 6 => { d with dr6 := (v ||| 0xFFFF0FF0) &&& 0xFFFFEFFF }
  | _ => { d with dr7 := (v ||| 0x00000400) &&& 0xFFFF27FF }

end Sys2Proof.Machine

/-- The moves to and from debug registers complete at level 0. DR4 and DR5 are invalid under CR4.DE; with DR7.GD set a move
raises a debug exception instead, which sets DR6.BD and clears GD (R43, R496, R497, R675). -/
def Obligations.DebugMoveResult : Prop :=
  ∀ (p : Pfx) (r : Reg) (n : BitVec 3) (i : Instr) (s : State), (i = .movRDr p r n ∨ i = .movDrR p n r) → s.level = 0 →
    ((n = 4 ∨ n = 5) → s.dbgExt = true → exec i s = takeException (Exc.fault vUD none) s s.advance) ∧
    (((n = 4 ∨ n = 5) → s.dbgExt = false) → s.dr.dr7.getLsbD 13 = true →
      exec i s = takeException { Exc.fault vDB none with dr6 := 0x2000, clearGd := true } s s.advance) ∧
    (((n = 4 ∨ n = 5) → s.dbgExt = false) → s.dr.dr7.getLsbD 13 = false →
      (∃ t, exec (.movRDr p r n) s = .next t ∧ FlagsTo s.flags t.flags none none none none none none ∧
        t = { s.advance with gpr := s.gpr.put r (drOf s.dr n), flags := t.flags, draws := t.draws }) ∧
      ∃ t, exec (.movDrR p n r) s = .next t ∧ FlagsTo s.flags t.flags none none none none none none ∧
        t = { s.advance with
          dr := drTo s.dr n (s.gpr.get r), flags := t.flags, draws := t.draws, cache := afterSerial s.cache })

namespace Sys2Proof.Machine

/-- The table register in six bytes: limit, then base, of which a 16-bit operand size keeps 24 bits (R500). -/
def tableIn (o : OSz) (bs : List Byte) : TableReg :=
  let base : Word := ofLe 32 (bs.drop 2)
  { limit := ofLe 16 (bs.take 2), base := if o = .o16 then base &&& 0x00FFFFFF else base }

end Sys2Proof.Machine

/-- LGDT and LIDT complete at level 0: the register gets the limit and the base in the operand (R500, R501). -/
def Obligations.TableRegisterResult : Prop :=
  ∀ (p : Pfx) (m : MemOp) (s : State), s.flat = true → s.level = 0 →
    s.may (segFor p m) (effAddr m s.gpr) 6 4 false = true →
    let v := tableIn p.osz (s.bytes (segFor p m) (effAddr m s.gpr) 6)
    (∃ t, exec (.lgdtMs p m) s = .next t ∧
      t = { s.advance with sys := { s.sys with gdtr := v }, cache := t.cache, draws := t.draws }) ∧
    ∃ t, exec (.lidtMs p m) s = .next t ∧
      t = { s.advance with sys := { s.sys with idtr := v }, cache := t.cache, draws := t.draws }

namespace Sys2Proof.Machine

/-- The fault of LLDT and LTR with a selector that is not null: GP beyond the GDT, in the LDT, or for another type of descriptor, NP
where it is not present, with the selector as the error code (R502, R503). -/
def systemFault (s : State) (sel : Half) (types : List (BitVec 4)) : Option Byte :=
  if sel.getLsbD 2 then some vGP
  else match s.descAddr sel with
    | none => some vGP
    | some la =>
      if (descAt s la).attr.s || !types.contains (descAt s la).attr.typ then some vGP
      else if (descAt s la).attr.p then none else some vNP

end Sys2Proof.Machine

/-- LLDT and LTR complete in Protected mode at level 0 with a present descriptor of the GDT: LLDT loads an LDT, or with a null
selector makes the LDT unusable; LTR loads an available TSS and marks it busy, in the register and in memory. With another descriptor
they raise GP or NP with the selector as the error code, LTR with a null selector GP(0) (R502, R503). -/
def Obligations.SystemSegmentResult : Prop :=
  ∀ (p : Pfx) (rm : RM) (la : Word) (s : State), s.flat = true → s.mode = .prot → s.level = 0 →
    s.mayUse .w false (placeOf p s.gpr rm) = true →
    let sel := s.get .w (placeOf p s.gpr rm)
    let d := descAt s la
    (nullSel sel = true → ∃ t, exec (.lldtEw p rm) s = .next t ∧
      t = { s.advance with sys := { s.sys with ldtr := t.sys.ldtr }, cache := t.cache, draws := t.draws } ∧
      t.sys.ldtr.sel = sel ∧ ∀ x : Half, x.getLsbD 2 = true → t.descAddr x = none) ∧
    (nullSel sel = false → sel.getLsbD 2 = false → s.descAddr sel = some la → d.attr.s = false → d.attr.p = true →
      (d.attr.typ = 2 → ∃ t, exec (.lldtEw p rm) s = .next t ∧
        t = { s.advance with sys := { s.sys with ldtr := sysLoad sel d 2 }, cache := t.cache, draws := t.draws }) ∧
      (d.attr.typ = 1 ∨ d.attr.typ = 9 → ∃ t, exec (.ltrEw p rm) s = .next t ∧
        t = { s.advance with
          sys := { s.sys with tr := sysLoad sel d (d.attr.typ ||| 2) }, mem := t.mem, cache := t.cache, draws := t.draws } ∧
        ∀ a, t.mem.read a = if a = s.sysAddr la 5 then s.mem.read a ||| 2 else s.mem.read a)) ∧
    (nullSel sel = true → raises (.ltrEw p rm) s vGP 0) ∧
    (nullSel sel = false →
      (∀ v, systemFault s sel [2] = some v → raises (.lldtEw p rm) s v (sel &&& 0xFFFC)) ∧
      ∀ v, systemFault s sel [1, 9] = some v → raises (.ltrEw p rm) s v (sel &&& 0xFFFC))

namespace Sys2Proof.Machine

/-- A 64-bit value in EDX:EAX. -/
def pair64 (g : Gpr) (v : Qword) : Gpr := { g with edx := v.extractLsb' 32 32, eax := v.extractLsb' 0 32 }

/-- What RDMSR returns for a register number, the array access register apart (R307). -/
def msrValue (m : Msrs) (n : Word) : Option Qword :=
  if n = 0 then some (m.mcar &&& 0xFFFFFFFF)
  else if n = 1 then some (m.mctr &&& 0x1F)
  else if n = 0x10 then some m.tsc
  else if n = 0x83 then some (m.hwcr &&& 0xFF)
  else none

/-- What WRMSR stores (R308, R830). -/
def msrStore (m : Msrs) (n : Word) (hi lo : Word) : Option Msrs :=
  if n = 0 then some { m with mcar := lo.setWidth 64 }
  else if n = 1 then some { m with mctr := (lo &&& 0x1F).setWidth 64 }
  else if n = 0x10 then some { m with tsc := hi ++ lo }
  else if n = 0x83 then some { m with hwcr := (lo &&& 0xEF).setWidth 64 }
  else none

end Sys2Proof.Machine

/-- RDTSC completes at level 0 or with TSD clear, else raises GP(0). RDMSR completes at level 0: the register's value goes to
EDX:EAX, a read of MCTR clears its CHK bit, one of the array access register writes EAX alone; another number raises
GP(0) (R306, R307). CPUID completes in every mode and at every level: function 0 gives the highest function and the vendor,
function 1 the signature and the features (R300); what another function gives is left open. -/
def Obligations.ReadModelSpecific : Prop :=
  ∀ (p : Pfx) (s : State),
    (exec (.rdtsc p) s = if s.tsd = true ∧ s.level ≠ 0 then takeException (Exc.fault vGP (some 0)) s s.advance
      else .next { s.advance with gpr := pair64 s.gpr s.msr.tsc }) ∧
    (s.level = 0 →
      (∀ v, msrValue s.msr s.gpr.ecx = some v → exec (.rdmsr p) s = .next { s.advance with
        gpr := pair64 s.gpr v, cache := afterSerial s.cache,
        msr := if s.gpr.ecx = 1 then { s.msr with mctr := s.msr.mctr &&& 0xFFFFFFFFFFFFFFFE } else s.msr }) ∧
      (s.gpr.ecx = 0x82 → ∃ t, exec (.rdmsr p) s = .next t ∧
        t = { s.advance with gpr := { s.gpr with eax := t.gpr.eax }, cache := afterSerial s.cache, draws := t.draws }) ∧
      (msrValue s.msr s.gpr.ecx = none → s.gpr.ecx ≠ 0x82 →
        exec (.rdmsr p) s = takeException (Exc.fault vGP (some 0)) s s.advance)) ∧
    ∃ t a b c d, exec (.cpuid p) s = .next t ∧
      t = { s.advance with
        gpr := { s.gpr with eax := a, ebx := b, ecx := c, edx := d }, cache := afterSerial s.cache, draws := t.draws } ∧
      (s.gpr.eax = 0 → a = 1 ∧ b = 0x68747541 ∧ c = 0x444D4163 ∧ d = 0x69746E65) ∧
      (s.gpr.eax = 1 → a.toNat = 0x500 + 16 * s.plat.model.toNat + s.plat.stepping.toNat ∧ b = 0 ∧ c = 0 ∧ d = 0x3BF)

/-- WRMSR completes at level 0: the register gets the bits it has of EDX:EAX; another number raises GP(0). A write of the array
access register to a named array changes only the caches and, for the data arrays, the memory they hold; one to no named
array is refused (R308, R842, U17; what an array is left with is the model's choice). -/
def Obligations.WriteModelSpecific : Prop :=
  ∀ (p : Pfx) (s : State), s.level = 0 →
    (∀ m, msrStore s.msr s.gpr.ecx s.gpr.edx s.gpr.eax = some m →
      exec (.wrmsr p) s = .next { s.advance with msr := m, cache := afterSerial s.cache }) ∧
    (msrStore s.msr s.gpr.ecx s.gpr.edx s.gpr.eax = none → s.gpr.ecx ≠ 0x82 →
      exec (.wrmsr p) s = takeException (Exc.fault vGP (some 0)) s s.advance) ∧
    (s.gpr.ecx = 0x82 →
      let id := s.gpr.edx.toNat % 256
      if 0xE0 ≤ id ∧ id ≤ 0xED ∧ id ≠ 0xE2 ∧ id ≠ 0xE3 then
        ∃ t, exec (.wrmsr p) s = .next t ∧
          t = { s.advance with mem := t.mem, cache := t.cache, draws := t.draws } ∧
          (id ≠ 0xE0 → id ≠ 0xE1 → id ≠ 0xEC → t.mem = s.mem)
      else exec (.wrmsr p) s = .refused .arrayWrite)

/-- CMPXCHG8B completes where its eight bytes may be written: equal to EDX:EAX they become ECX:EBX and ZF is set; else they go
to EDX:EAX, memory keeps them, and ZF is cleared; no other flag changes (R303). -/
def Obligations.CompareExchangeResult : Prop :=
  ∀ (p : Pfx) (m : MemOp) (s : State), s.flat = true →
    s.may (segFor p m) (effAddr m s.gpr) 8 8 true = true →
    let v : Qword := s.value (segFor p m) (effAddr m s.gpr) 8 64
    ∃ t, exec (.cmpxchg8bMq p m) s = .next t ∧ Frame s t ∧
      t.flags = { s.flags with zf := decide (v = s.gpr.edx ++ s.gpr.eax) } ∧
      if v = s.gpr.edx ++ s.gpr.eax then
        t.gpr = s.gpr ∧ Stored s t (segFor p m) (effAddr m s.gpr) (toLe 4 s.gpr.ebx ++ toLe 4 s.gpr.ecx)
      else t.gpr = pair64 s.gpr v ∧ SameBytes s t

namespace Sys2Proof.Machine

/-! ### System Management Mode -/

/-- A doubleword of the save area by its offset (R702, R712). -/
def State.slot (s : State) (off : Nat) : Word :=
  ofLe 32 ((List.range 4).map fun k => s.mem.read (s.smm.base + BitVec.ofNat 32 (off + k)).toNat)

/-- The save area holds what RSM rejects (R721). -/
def badSave (s : State) : Prop :=
  (s.slot 0xFEF8).toNat % 32768 ≠ 0 ∨ s.slot 0xFF10 &&& 0xFFFFFF20 ≠ 0 ∨
  ((s.slot 0xFFFC).getLsbD 31 = true ∧ (s.slot 0xFFFC).getLsbD 0 = false) ∨
  ((s.slot 0xFFFC).getLsbD 29 = true ∧ (s.slot 0xFFFC).getLsbD 30 = false)

/-- The registers the save area holds (R712, R720). -/
def savedGpr (s : State) : Gpr :=
  { eax := s.slot 0xFFD0, ecx := s.slot 0xFFD4, edx := s.slot 0xFFD8, ebx := s.slot 0xFFDC,
    esp := s.slot 0xFFE0, ebp := s.slot 0xFFE4, esi := s.slot 0xFFE8, edi := s.slot 0xFFEC }

/-- The handler left the save area as entry wrote it, but for the fields it may change: the general registers, EIP, EFLAGS, the
two restart slots and the SMM base (R713). -/
def handlerKept (s : State) : Prop :=
  ∀ img, s.smm.image = some img → ∀ k, k < 512 →
    (0x1D0 ≤ k ∧ k < 0x1F8) ∨ (0x100 ≤ k ∧ k < 0x104) ∨ (0xF8 ≤ k ∧ k < 0xFC) ∨
    s.mem.read (s.smm.base + BitVec.ofNat 32 (0xFE00 + k)).toNat = img.getD k 0

/-- The restart slots hold what a handler may leave in them: no I/O restart, or one of the I/O instruction that the entry recorded
as valid, with no halt restart beside it (R708, R709). -/
def restartAllowed (s : State) : Prop :=
  (s.slot 0xFF00).setWidth 16 = (0 : Half) ∨
  ((s.slot 0xFF00).setWidth 16 = (0xFF : Half) ∧ (s.slot 0xFFA4).getLsbD 1 = true ∧ (s.slot 0xFF02).getLsbD 0 = false)

/-- No halt or I/O restart is asked for, and no debug trap waits (R708, R709, R722). -/
def plainResume (s : State) : Prop :=
  (s.slot 0xFF02).getLsbD 0 = false ∧ (s.slot 0xFF00).setWidth 16 = (0 : Half) ∧ s.smm.dbPostponed = false ∧
    s.smm.fromShutdown = false

/-- A segment register from its four slots (R712, R720). -/
def savedSeg (s : State) (sel attr base limit : Nat) : SegReg :=
  { sel := (s.slot sel).setWidth 16, base := s.slot base, limit := (s.slot limit).setWidth 20,
    attr := SegAttr.ofBits ((s.slot attr).setWidth 12) }

/-- The segment registers the save area holds (R712, R720). -/
def savedSegs (s : State) : SegFile :=
  { es := savedSeg s 0xFFA8 0xFF2C 0xFF28 0xFF24, cs := savedSeg s 0xFFAC 0xFF38 0xFF34 0xFF30,
    ss := savedSeg s 0xFFB0 0xFF44 0xFF40 0xFF3C, ds := savedSeg s 0xFFB4 0xFF50 0xFF4C 0xFF48,
    fs := savedSeg s 0xFFB8 0xFF5C 0xFF58 0xFF54, gs := savedSeg s 0xFFBC 0xFF68 0xFF64 0xFF60 }

/-- The system-table registers the save area holds (R712, R720). -/
def savedSys (s : State) : SysRegs :=
  { gdtr := { base := s.slot 0xFF88, limit := (s.slot 0xFF84).setWidth 16 },
    idtr := { base := s.slot 0xFF90, limit := (s.slot 0xFF8C).setWidth 16 },
    ldtr := savedSeg s 0xFFC0 0xFF74 0xFF70 0xFF6C, tr := savedSeg s 0xFFC4 0xFF80 0xFF7C 0xFF78 }

/-- The control registers the save area holds (R712, R720). -/
def savedCr (s : State) : CtrlRegs :=
  { cr0 := s.slot 0xFFFC, cr2 := s.slot 0xFF14, cr3 := s.slot 0xFFF8, cr4 := s.slot 0xFF10 }

/-- The debug registers after RSM: DR6 and DR7 from the area, their reserved bits at their fixed values (R41, R42, R720). -/
def savedDr (s : State) : DebugRegs :=
  { s.dr with dr6 := (s.slot 0xFFCC ||| 0xFFFF0FF0) &&& 0xFFFFEFFF, dr7 := (s.slot 0xFFC8 ||| 0x00000400) &&& 0xFFFF27FF }

/-- The level after RSM: 3 with VM set, else the DPL of SS, and 0 with PE clear (R720). -/
def savedCpl (s : State) : BitVec 2 :=
  if (s.slot 0xFFFC).getLsbD 0 = false then 0
  else if (Flags.ofWord (s.slot 0xFFF4)).vm = true then 3 else (savedSegs s).ss.attr.dpl

/-- What RSM restores whatever the restart slots ask for (R711, R720). -/
structure Restored (s t : State) : Prop where
  cr : t.cr = savedCr s
  flags : t.flags = Flags.ofWord (s.slot 0xFFF4)
  cpl : t.cpl = savedCpl s
  seg : t.seg = savedSegs s
  sys : t.sys = savedSys s
  dr : t.dr = savedDr s
  smm : t.smm = { s.smm with
    active := false, base := s.slot 0xFEF8, lastIo := none, dbPostponed := false, image := none, fromShutdown := false }
  nmi : t.intr.nmiMasked = false
  tlb : t.cache.tlb = []
  fpu : t.fpu = s.fpu
  msr : t.msr = s.msr
  mem : t.mem = s.mem

end Sys2Proof.Machine

/-- RSM completes in SMM at level 0 on a save area that entry wrote and the handler left alone in its read-only fields: the
registers of the area are loaded and SMM and the masking of NMI end; a halt restart halts the processor again, an I/O
restart goes back to the I/O instruction with its ESI, ECX and EDI, a postponed debug trap is due; with none of these nothing
else changes. RSM is invalid outside SMM, raises GP(0) below level 0, and enters Shutdown on a save area it rejects (R312,
R708, R709, R720 to R722). The model's choices are that the RF of the area stays set after RSM (log 52), the order of the bits in an
attribute slot (log 18), and the reserved bits of DR6 and DR7 (log 20). -/
def Obligations.ResumeResult : Prop :=
  ∀ (p : Pfx) (s : State),
    (s.smm.active = false → exec (.rsm p) s = takeException (Exc.fault vUD none) s s.advance) ∧
    (s.smm.active = true → s.level ≠ 0 → exec (.rsm p) s = takeException (Exc.fault vGP (some 0)) s s.advance) ∧
    (s.smm.active = true → s.level = 0 → s.cache.foreign = false → badSave s → ∃ t, exec (.rsm p) s = .next t ∧
      t = { s.advance with
        clock := .shutdown, bus := .special 0xFE 0 0 :: s.bus,
        intr := { s.intr with dbTrap := false, shadow := .none, handling := none }, scr := t.scr, cache := t.cache, draws := t.draws }) ∧
    (s.smm.active = true → s.level = 0 → s.cache.foreign = false → oneMap s.plat = true → ¬ badSave s → handlerKept s →
      restartAllowed s →
      (∃ t, exec (.rsm p) s = .next t ∧ Restored s t ∧
        ((s.slot 0xFF02).getLsbD 0 = true → t.clock = .halt ∧ t.eip = s.slot 0xFFF0 ∧ t.gpr = savedGpr s) ∧
        ((s.slot 0xFF00).setWidth 16 = (0xFF : Half) → t.eip = s.slot 0xFF9C ∧
          t.gpr = { savedGpr s with esi := s.slot 0xFF0C, ecx := s.slot 0xFF08, edi := s.slot 0xFF04 }) ∧
        ((s.slot 0xFF02).getLsbD 0 = false → (s.slot 0xFF00).setWidth 16 = (0 : Half) → s.smm.dbPostponed = true →
          t.intr.dbTrap = true ∧ t.eip = s.slot 0xFFF0 ∧ t.gpr = savedGpr s)) ∧
      (plainResume s → ∃ t, exec (.rsm p) s = .next t ∧ Restored s t ∧
        t = { s with
          eip := s.slot 0xFFF0, gpr := savedGpr s, flags := t.flags, cpl := t.cpl, cr := t.cr, dr := t.dr, seg := t.seg,
          sys := t.sys, smm := t.smm, intr := { s.intr with nmiMasked := false },
          scr := { s.scr with start := s.eip, rfLoaded := true }, cache := t.cache, draws := t.draws, bus := t.bus } ∧
        (s.tracing = false → t.bus = s.bus)))

namespace Sys2Proof.Machine

/-! ### Floating point -/

/-- An x87 instruction may begin (R532, R533, R590): EM and TS clear, no error pending or IGNNE# lets it pass. -/
def fpReady (s : State) : Bool := !s.em && !s.ts && (!s.fpu.sw.es || (!s.ne && s.ignne))

/-- The precision control is not the reserved one (R531). -/
def pcOk (s : State) : Bool := s.fpu.cw.extractLsb' 8 2 != 1

/-- The control word stays and the exception pointers name the instruction (R53, R56, R537). -/
def fpPointers (s t : State) : Prop :=
  t.fpu.cw = s.fpu.cw ∧ t.fpu.fcs = s.seg.cs.sel ∧ t.fpu.fip = s.eip ∧ t.fpu.fop = s.scr.fop

/-- The data pointers name a memory operand (R56, R537). -/
def fpDataPointers (s t : State) (f : FpMemForm) : Prop :=
  t.fpu.fds = (s.seg.get (segFor f.p f.m)).sel ∧ t.fpu.fdp = effAddr f.m s.gpr

end Sys2Proof.Machine

/-- Every x87 instruction that may begin completes, whatever its operands and the exceptions they raise: it changes nothing
but the floating-point state, EIP and, for a store, the bytes of its operand or none; the control word stays and the
exception pointers name it (R53, R56, R536, R537). -/
def Obligations.FpCompletes : Prop :=
  ∀ (i : Instr) (s : State), fpReady s = true →
    (∀ a, IsFpReg i a → (a = true → pcOk s = true) → ∃ t, exec i s = .next t ∧
      t = { s.advance with fpu := t.fpu, draws := t.draws } ∧ fpPointers s t ∧
      t.fpu.fds = s.fpu.fds ∧ t.fpu.fdp = s.fpu.fdp) ∧
    (∀ f a, IsFpRead i f a → (a = true → pcOk s = true) → s.flat = true →
      s.may (segFor f.p f.m) (effAddr f.m s.gpr) f.n f.al false = true → ∃ t, exec i s = .next t ∧
      t = { s.advance with fpu := t.fpu, cache := t.cache, draws := t.draws } ∧ fpPointers s t ∧ fpDataPointers s t f) ∧
    (∀ f, IsFpWrite i f → s.flat = true →
      s.may (segFor f.p f.m) (effAddr f.m s.gpr) f.n f.al true = true → ∃ t, exec i s = .next t ∧
      t = { s.advance with fpu := t.fpu, mem := t.mem, cache := t.cache, draws := t.draws } ∧ fpPointers s t ∧
      fpDataPointers s t f ∧
      (t.mem = s.mem ∨ ∃ vs, vs.length = f.n ∧ Stored s t (segFor f.p f.m) (effAddr f.m s.gpr) vs))

namespace Sys2Proof.Machine

/-- An x87 instruction other than FWAIT. -/
def isEsc (i : Instr) : Prop := (∃ a, IsFpReg i a) ∨ (∃ f a, IsFpRead i f a) ∨ ∃ f, IsFpWrite i f

/-- What a pending error does to an instruction that waits for it (R533, R590): MF with NE; without NE the processor waits,
with nothing done, until IGNNE# is asserted. -/
def pendingError (i : Instr) (s : State) : Prop :=
  if s.ne then ∃ c k, exec i s = takeException (Exc.fault vMF none) s ((s.advance.setCache c).setDraws k)
  else s.ignne = false → exec i s = .next { s with scr := { s.scr with noTrap := true } }

/-- The memory operand of an x87 instruction may be used. -/
def State.mayOperand (s : State) (f : FpMemForm) (write : Bool) : Prop :=
  s.flat = true ∧ s.may (segFor f.p f.m) (effAddr f.m s.gpr) f.n f.al write = true

end Sys2Proof.Machine

/-- The checks every x87 instruction makes first: EM or TS raises NM, a pending error MF or a wait, and the reserved precision
control is refused. FWAIT looks at MP with TS instead of EM and TS, and otherwise only goes on (R531 to R533, R576,
R590). That either a pending error or a fault of the memory operand may come first is the model's choice (log 56). -/
def Obligations.FpChecks : Prop :=
  (∀ (i : Instr) (s : State), isEsc i →
    (s.em = true ∨ s.ts = true → exec i s = takeException (Exc.fault vNM none) s s.advance) ∧
    (s.em = false → s.ts = false → s.fpu.sw.es = true →
      ((∃ a, IsFpReg i a) ∨ (∃ f a, IsFpRead i f a ∧ s.mayOperand f false) ∨ (∃ f, IsFpWrite i f ∧ s.mayOperand f true) ∨
        Config.freeBit s.draws = false) → pendingError i s) ∧
    (fpReady s = true → pcOk s = false → (IsFpReg i true ∨ ∃ f, IsFpRead i f true) →
      exec i s = .refused .precision)) ∧
  ∀ (p : Pfx) (s : State),
    (s.mp = true → s.ts = true → exec (.fwait p) s = takeException (Exc.fault vNM none) s s.advance) ∧
    ((s.mp = false ∨ s.ts = false) → s.fpu.sw.es = true → pendingError (.fwait p) s) ∧
    ((s.mp = false ∨ s.ts = false) → (s.fpu.sw.es = false ∨ (s.ne = false ∧ s.ignne = true)) →
      exec (.fwait p) s = .next s.advance)

namespace Sys2Proof.Machine

/-! ### Accesses that are not allowed -/

/-- The access of an operand in memory. -/
def Place.use (n al : Nat) (write : Bool) : Place → Option Use
  | .reg _ => none
  | .mem seg off => some ⟨false, seg, off, n, al, write⟩

/-- The access of an operand of an operand size. -/
def Place.sized (sz : Size) (write : Bool) (pl : Place) : Option Use := pl.use sz.bytes sz.bytes write

/-- The access of a pop, and of a push. -/
def State.popUse (s : State) (n : Nat) : Option Use := some ⟨true, .ss, s.stackOff 0, n, n, false⟩
def State.pushUse (s : State) (n : Nat) : Option Use := some ⟨true, .ss, s.pushOff s.gpr.esp n, n, n, true⟩

/-- The accesses an instruction makes, each where what comes before it in the instruction is allowed: an operand that is only read, one
that is written, the stack (R360, R440). A shift by zero may or may not write (R381); it is not among them. -/
inductive Uses (s : State) : Instr → Option Use → Prop
  | aluTo {i f} : IsAlu i f → Uses s i ((placeOf f.p s.gpr f.dst).sized f.sz f.op.writes)
  | aluFrom {i f rm} : IsAlu i f → f.src = .rm rm → Uses s i ((placeOf f.p s.gpr rm).sized f.sz false)
  | unary {i f} : IsUnary i f → Uses s i ((placeOf f.p s.gpr f.dst).sized f.sz true)
  | shift {i f} : IsShift i f → s.count f.n ≠ 0 → Uses s i ((placeOf f.p s.gpr f.dst).sized f.sz true)
  | double {i f} : IsDouble i f → s.count f.n ≠ 0 → Uses s i ((placeOf f.p s.gpr f.dst).sized f.p.osz.size true)
  | bit {i f} : IsBit i f → Uses s i ((bitPlace s f).sized f.p.osz.size (f.act != .test || f.p.lock))
  | bsf {p g rm} : Uses s (.bsfGvEv p g rm) ((placeOf p s.gpr rm).sized p.osz.size false)
  | bsr {p g rm} : Uses s (.bsrGvEv p g rm) ((placeOf p s.gpr rm).sized p.osz.size false)
  | mul {i f} : IsMul i f → Uses s i ((placeOf f.p s.gpr f.src).sized f.sz false)
  | imul {i f} : IsImul i f → Uses s i ((placeOf f.p s.gpr f.src).sized f.sz false)
  | imulTo {i f} : IsImulTo i f → Uses s i ((placeOf f.p s.gpr f.rm).sized f.p.osz.size false)
  | div {i f} : IsDiv i f → Uses s i ((placeOf f.p s.gpr f.src).sized f.sz false)
  | idiv {i f} : IsIdiv i f → Uses s i ((placeOf f.p s.gpr f.src).sized f.sz false)
  | moveTo {i f} : IsMove i f → Uses s i ((locPlace f.p s.gpr f.dst).sized f.sz true)
  | moveFrom {i f l} : IsMove i f → f.src = .loc l → Uses s i ((locPlace f.p s.gpr l).sized f.sz false)
  | extend {i f} : IsExtend i f → Uses s i ((placeOf f.p s.gpr f.rm).sized f.src false)
  | xchg {i f} : IsXchg i f → Uses s i ((placeOf f.p s.gpr f.rm).sized f.sz true)
  | setcc {p cc rm} : Uses s (.setccEb p cc rm) ((placeOf p s.gpr rm).sized .b true)
  | fromSeg {p rm sr} : Uses s (.movEwSreg p rm sr) ((placeOf p s.gpr rm).sized .w true)
  | toSeg {p sr rm} : Uses s (.movSregEw p sr rm) ((placeOf p s.gpr rm).sized .w false)
  | pushFrom {i f rm} : IsPush i f → f.src = .rm rm → Uses s i ((placeOf f.p s.gpr rm).sized f.p.osz.size false)
  | push {i f} : IsPush i f → s.maySrc f.p f.p.osz.size f.src = true → Uses s i (s.pushUse f.p.osz.bytes)
  | pop {i p rm} : IsPop i (p, rm) → Uses s i (s.popUse p.osz.bytes)
  | popTo {i p rm} : IsPop i (p, rm) → s.may .ss (s.stackOff 0) p.osz.bytes p.osz.bytes false = true →
      Uses s i ((placeOf p (s.gpr.put .esp (s.popped p.osz.bytes)) rm).sized p.osz.size true)
  | popSs {p} : Uses s (.popSs p) (s.popUse p.osz.bytes)
  | pushf {p} : flagsAllowed s p.osz = true → Uses s (.pushf p) (s.pushUse p.osz.bytes)
  | popf {p} : flagsAllowed s p.osz = true → Uses s (.popf p) (s.popUse p.osz.bytes)
  | jumpFrom {i p rm} : IsJump i (p, .ind rm) → Uses s i ((placeOf p s.gpr rm).sized p.osz.size false)
  | callFrom {i p rm} : IsCall i (p, .ind rm) → Uses s i ((placeOf p s.gpr rm).sized p.osz.size false)
  | call {i p g} : IsCall i (p, g) → s.mayTarget p g = true → inCode s (s.target p g) = true →
      Uses s i (s.pushUse p.osz.bytes)
  | ret {i p n} : IsRet i (p, n) → Uses s i (s.popUse p.osz.bytes)
  | farJump {p m} : Uses s (.jmpMp p m) ((placeOf p s.gpr (.mem m)).use (p.osz.bytes + 2) 4 false)
  | cmpxchg8b {p m} : Uses s (.cmpxchg8bMq p m) ((placeOf p s.gpr (.mem m)).use 8 8 true)
  | lgdt {p m} : s.level = 0 → Uses s (.lgdtMs p m) ((placeOf p s.gpr (.mem m)).use 6 4 false)
  | lidt {p m} : s.level = 0 → Uses s (.lidtMs p m) ((placeOf p s.gpr (.mem m)).use 6 4 false)
  | lldt {p rm} : s.mode = .prot → s.level = 0 → Uses s (.lldtEw p rm) ((placeOf p s.gpr rm).sized .w false)
  | ltr {p rm} : s.mode = .prot → s.level = 0 → Uses s (.ltrEw p rm) ((placeOf p s.gpr rm).sized .w false)
  | fpRead {i f a} : IsFpRead i f a → fpReady s = true → (a = true → pcOk s = true) →
      Uses s i ((placeOf f.p s.gpr (.mem f.m)).use f.n f.al false)
  | fpWrite {i f} : IsFpWrite i f → fpReady s = true → Uses s i ((placeOf f.p s.gpr (.mem f.m)).use f.n f.al true)

end Sys2Proof.Machine

/-- In Protected mode outside SMM a null selector is loaded into DS, ES, FS or GS, and every read or write through the register then
raises GP(0); into SS it raises GP(0) (R112, R113, R644). In every mode an access that the segment or the alignment check does not allow
raises its fault before anything else of the access: GP(0) or SS(0) of the segment, AC(0). Every instruction with a memory operand that it
reads or writes, PUSH, POP, PUSHF, POPF, CALL and RET raise it with nothing stored; a shift by zero raises that of its read, or of the
write it may also make (R112, R360, R440, R617). That a null SS or one of the wrong type raises SS(0) in a push or a pop is the model's
reading (log 8). -/
def Obligations.AccessFault : Prop :=
  (∀ (p : Pfx) (sr : Seg) (rm : RM) (s : State), s.flat = true → descLoads s → sr ≠ .cs →
    s.mayUse .w false (placeOf p s.gpr rm) = true → nullSel (s.get .w (placeOf p s.gpr rm)) = true →
    if sr = .ss then
      ∃ c k, exec (.movSregEw p sr rm) s = takeException (Exc.fault vGP (some 0)) s ((s.advance.setCache c).setDraws k)
    else
      ∃ t, exec (.movSregEw p sr rm) s = .next t ∧ Frame { s with seg := t.seg } t ∧ t.gpr = s.gpr ∧
        t.flags = s.flags ∧ t.mem = s.mem ∧ (t.seg.get sr).sel = s.get .w (placeOf p s.gpr rm) ∧
        (∀ q, q ≠ sr → t.seg.get q = s.seg.get q) ∧
        ∀ (off : Word) (n al : Nat) (u : State), u.mode = .prot → u.seg.get sr = t.seg.get sr →
          openRead sr off n al u = .error (.exc (Exc.fault vGP (some 0))) u ∧
          openWrite sr off n al u = .error (.exc (Exc.fault vGP (some 0))) u) ∧
  (∀ (seg : Seg) (off : Word) (n al : Nat) (s : State),
    (∀ x : Use, x = ⟨false, seg, off, n, al, false⟩ → s.allows x = false →
      openRead seg off n al s = .error (.exc (Exc.fault (s.denies x) (some 0))) s) ∧
    (∀ x : Use, x = ⟨false, seg, off, n, al, true⟩ → s.allows x = false →
      openWrite seg off n al s = .error (.exc (Exc.fault (s.denies x) (some 0))) s ∧
      openRmw seg off n al s = .error (.exc (Exc.fault (s.denies x) (some 0))) s)) ∧
  (∀ (i : Instr) (o : Option Use) (x : Use) (s : State), Uses s i o → o = some x → s.flat = true → s.allows x = false →
    raises i s (s.denies x) 0) ∧
  ∀ (i : Instr) (rm : RM) (p : Pfx) (sz : Size) (x y : Use) (s : State),
    (∃ f, IsShift i f ∧ s.count f.n = 0 ∧ f.p = p ∧ f.sz = sz ∧ f.dst = rm) ∨
      (∃ f, IsDouble i f ∧ s.count f.n = 0 ∧ f.p = p ∧ f.p.osz.size = sz ∧ f.dst = rm) →
    (placeOf p s.gpr rm).sized sz false = some x → (placeOf p s.gpr rm).sized sz true = some y → s.flat = true →
    s.allows x = false → raises i s (s.denies x) 0 ∨ raises i s (s.denies y) 0

namespace Sys2Proof.Machine

/-- A register value that is a number and not a denormal (R530). -/
def finiteExt (v : Ext) : Option Num := if fpClass v = .zero ∨ fpClass v = .normal then some (fpNum v) else none

/-- The number of a real_32 or real_64 with `e` exponent and `f` fraction bits, if it is zero or normal (R530). -/
def finiteReal (e f : Nat) (neg : Bool) (exp frac : Nat) : Option Num :=
  if exp = 2 ^ e - 1 then none
  else if exp = 0 then (if frac = 0 then some { neg := neg, man := 0, exp := 0 } else none)
  else some { neg := neg, man := 2 ^ f + frac, exp := (exp : Int) - (2 ^ (e - 1) - 1) - f }

/-- The number of an operand that is zero or normal. -/
def State.fpFinite (s : State) : FpSource → Option Num
  | .st i => finiteExt (s.fpu.st i)
  | .single p m =>
    let w : BitVec 32 := s.value (segFor p m) (effAddr m s.gpr) 4 32
    finiteReal 8 23 w.msb (w.extractLsb' 23 8).toNat (w.extractLsb' 0 23).toNat
  | .double p m =>
    let w : BitVec 64 := s.value (segFor p m) (effAddr m s.gpr) 8 64
    finiteReal 11 52 w.msb (w.extractLsb' 52 11).toNat (w.extractLsb' 0 52).toNat
  | .int n p m =>
    let k := (s.value (segFor p m) (effAddr m s.gpr) n (8 * n)).toInt
    some { neg := decide (k < 0), man := k.natAbs, exp := 0 }
  | .zero => some { neg := false, man := 0, exp := 0 }

/-- `z` is exactly the result of the operation on `x` and `y`, all three brought to one exponent. -/
def FpArith.exactly (op : FpArith) (x y z : Num) : Prop :=
  let e := min 0 (min x.exp (min y.exp z.exp))
  match op with
  | .add => z.scaled e = x.scaled e + y.scaled e
  | .sub => z.scaled e = x.scaled e - y.scaled e
  | .subr => z.scaled e = y.scaled e - x.scaled e
  | .mul => z.scaled (e + e) = x.scaled e * y.scaled e

/-- `k` is the integer a number rounds to (R531): the nearest, an even one of two as near; the next at or below; at or above;
toward zero. -/
def roundsTo (rc : BitVec 2) (x : Num) (k : Int) : Prop :=
  let e := min 0 x.exp
  let u : Int := 2 ^ (-e).toNat
  let v := x.scaled e
  match rc.toNat with
  | 0 => 2 * (k * u - v).natAbs ≤ u ∧ (2 * (k * u - v).natAbs = u → k % 2 = 0)
  | 1 => k * u ≤ v ∧ v < (k + 1) * u
  | 2 => v ≤ k * u ∧ (k - 1) * u < v
  | _ => (k.natAbs * u ≤ v.natAbs ∧ v.natAbs < (k.natAbs + 1) * u) ∧ 0 ≤ k * v

/-- A number is `k` times two to the `q`. -/
def Num.isMultiple (x : Num) (k q : Int) : Prop := x.scaled (min x.exp q) = k * 2 ^ (q - min x.exp q).toNat

/-- `k` times two to the `q` is larger in magnitude than a number. -/
def Num.outgrownBy (x : Num) (k q : Int) : Bool :=
  decide ((x.scaled (min x.exp q)).natAbs < (k * 2 ^ (q - min x.exp q).toNat).natAbs)

/-- A number rounds to `k` times two to the `q` at `p` bits, with unbounded exponent (R531). -/
def roundsAt (rc : BitVec 2) (p : Nat) (x : Num) (k q : Int) : Prop :=
  let y : Num := { x with exp := x.exp - q }
  let u : Int := 2 ^ (-(min 0 y.exp)).toNat
  2 ^ (p - 1) * u ≤ (y.scaled (min 0 y.exp)).natAbs ∧ (y.scaled (min 0 y.exp)).natAbs < 2 ^ p * u ∧ roundsTo rc y k

/-- The exponent of a number rounded so. -/
def topAt (p : Nat) (k q : Int) : Int := if k.natAbs = 2 ^ p then q + p else q + p - 1

/-- An overflow gives infinity, not the largest finite number (R537). -/
def toInfinity (rc : BitVec 2) (neg : Bool) : Bool :=
  match rc.toNat with
  | 0 => true
  | 1 => neg
  | 2 => !neg
  | _ => false

/-- What delivering a result does: its value, and OE, UE, PE and C1 (R536, R537). -/
structure FpOut where
  v : Ext
  oe : Bool
  ue : Bool
  pe : Bool
  c1 : Bool

/-- A value of the register format that is zero, a denormal or normal, in its one canonical form (R530). -/
def canonical (v : Ext) : Prop := (fpExp v = 0 ∧ (fpSig v).getLsbD 63 = false) ∨ fpClass v = .normal

open Classical in
/-- The delivery of an exact number that is not zero to a register at `p` bits (R531, R537): in range, rounded; an overflow, masked or
not; an underflow, masked or not. What "largest finite" and "denormal of the destination" are below 64 bits is log 53. -/
inductive FpDelivers (f : Fpu) (p : Nat) (x : Num) : FpOut → Prop
  | inRange {k q v} : roundsAt f.rc p x k q → fpClass v = .normal → (fpNum v).isMultiple k q →
      FpDelivers f p x ⟨v, false, false, decide (¬ x.isMultiple k q), x.outgrownBy k q⟩
  | overflow {k q} : roundsAt f.rc p x k q → 16383 < topAt p k q → f.mask 3 = true →
      FpDelivers f p x ⟨if toInfinity f.rc x.neg then fpMake x.neg 32767 0x8000000000000000
        else fpMake x.neg 32766 (BitVec.ofNat 64 ((2 ^ p - 1) * 2 ^ (64 - p))), true, false, true, toInfinity f.rc x.neg⟩
  | overflowOpen {k q v} : roundsAt f.rc p x k q → 16383 < topAt p k q → f.mask 3 = false → fpClass v = .normal →
      (fpNum v).isMultiple k (q - 24576) →
      FpDelivers f p x ⟨v, true, false, decide (¬ x.isMultiple k q), x.outgrownBy k q⟩
  | underflow {k q j v} : roundsAt f.rc p x k q → topAt p k q < -16382 → f.mask 4 = true →
      roundsTo f.rc { x with exp := x.exp - (-16382 - (p - 1)) } j → canonical v → fpNeg v = x.neg →
      (fpNum v).isMultiple j (-16382 - (p - 1)) →
      FpDelivers f p x ⟨v, false, decide (¬ x.isMultiple j (-16382 - (p - 1))), decide (¬ x.isMultiple j (-16382 - (p - 1))),
        x.outgrownBy j (-16382 - (p - 1))⟩
  | underflowOpen {k q v} : roundsAt f.rc p x k q → topAt p k q < -16382 → f.mask 4 = false → fpClass v = .normal →
      (fpNum v).isMultiple k (q + 24576) →
      FpDelivers f p x ⟨v, false, true, decide (¬ x.isMultiple k q), x.outgrownBy k q⟩

/-- Some exception flag is set and not masked (R537). -/
def openError (cw : Half) (w : Fsw) : Bool :=
  (w.ie && !cw.getLsbD 0) || (w.de && !cw.getLsbD 1) || (w.ze && !cw.getLsbD 2) || (w.oe && !cw.getLsbD 3)
    || (w.ue && !cw.getLsbD 4) || (w.pe && !cw.getLsbD 5)

/-- The status word after flags are raised: they are sticky, ES and B follow, C1 is given, C0, C2 and C3 are whatever they are
(R536, R537). -/
def raisedSw (f : Fpu) (oe ue pe c1 : Bool) (top : BitVec 3) (new : Fsw) : Fsw :=
  let w := { f.sw with
    oe := f.sw.oe || oe, ue := f.sw.ue || ue, pe := f.sw.pe || pe, c0 := new.c0, c1 := c1, c2 := new.c2, c3 := new.c3, top := top }
  if (oe || ue || pe) && openError f.cw w then { w with es := true, b := true } else w

/-- Tags with the one of a register replaced, and then that of ST(0) emptied by a pop (R534). -/
def popTags (f : Fpu) (tw : Half) (pop : Bool) : Half := if pop then putTag tw (f.phys 0) 3 else tw

end Sys2Proof.Machine

/-- FADD, FSUB, FSUBR, FMUL and their P and I forms deliver a result exactly where the selected precision holds it: for normal
or zero operands whose exact sum, difference or product is a normal number of that precision, the destination gets that
number in every rounding mode, no exception flag changes, C1 is 0, and the P forms pop. Any other exact result that is not zero is
delivered rounded to that precision, with OE, UE, PE and C1 as its rounding, overflow or underflow sets them (R531, R536, R537, R547 to
R558; the largest number and the denormals of a precision below 64 bits are the model's choice, log 53). -/
def Obligations.FpArithmeticExact : Prop :=
  ∀ (i : Instr) (f : FpArithForm) (s : State) (x y : Machine.Num), IsFpArith i f → s.flat = true → fpReady s = true →
    pcOk s = true → s.fpu.empty f.dst = false → s.mayFp f.src = true → finiteExt (s.fpu.st f.dst) = some x →
    s.fpFinite f.src = some y →
    (∀ v : Ext, fpClass v = .normal → (fpSig v).toNat % 2 ^ (64 - s.fpu.prec) = 0 → f.op.exactly x y (fpNum v) →
      ∃ t, exec i s = .next t ∧ t.fpu.regs = s.fpu.regs.put (s.fpu.phys f.dst) v ∧
        t.fpu.tw = popTags s.fpu (putTag s.fpu.tw (s.fpu.phys f.dst) 0) f.pop ∧
        t.fpu.sw = { s.fpu.sw with
          c0 := t.fpu.sw.c0, c1 := false, c2 := t.fpu.sw.c2, c3 := t.fpu.sw.c3,
          top := if f.pop then s.fpu.sw.top + 1 else s.fpu.sw.top }) ∧
    ∀ (z : Machine.Num) (o : FpOut), f.op.exactly x y z → FpDelivers s.fpu s.fpu.prec z o →
      ∃ t, exec i s = .next t ∧ t.fpu.regs = s.fpu.regs.put (s.fpu.phys f.dst) o.v ∧
        t.fpu.tw = popTags s.fpu (putTag s.fpu.tw (s.fpu.phys f.dst) (fpTag o.v)) f.pop ∧
        t.fpu.sw = raisedSw s.fpu o.oe o.ue o.pe o.c1 (if f.pop then s.fpu.sw.top + 1 else s.fpu.sw.top) t.fpu.sw

namespace Sys2Proof.Machine

/-- A register value is exactly an integer (R543). -/
def isInteger (v : Ext) (k : Int) : Prop :=
  if k = 0 then v = 0
  else fpClass v = .normal ∧ (fpNum v).scaled (min 0 (fpNum v).exp) = k * 2 ^ (-(min 0 (fpNum v).exp)).toNat

/-- A register value is exactly a number; a zero keeps its sign (R530, R540). -/
def isNumber (v : Ext) (x : Num) : Prop :=
  if x.man = 0 then v = fpMake x.neg 0 0
  else fpClass v = .normal ∧ (fpNum v).scaled (min x.exp (fpNum v).exp) = x.scaled (min x.exp (fpNum v).exp)

/-- What an instruction that only moves values does to the register stack: the stack positions it writes, in order, with
their values; the new TOP; the position it frees; whether C1 becomes 0. -/
structure FpEffect where
  writes : List (BitVec 3 × Ext)
  top : BitVec 3
  freed : Option (BitVec 3)
  c1 : Bool

/-- The moves between registers, of signs and of TOP, the exact loads, and what FRNDINT, FSCALE and FXTRACT do exactly, with the
conditions under which no stack fault arises (R534, R540 to R543, R546, R569 to R575). -/
inductive FpMove (s : State) : Instr → FpEffect → Prop
  | fld {p i} : s.fpu.empty i = false → s.fpu.empty 7 = true →
      FpMove s (.fldSti p i) ⟨[(7, s.fpu.st i)], s.fpu.sw.top - 1, none, true⟩
  | fld80 {p m} : s.fpu.empty 7 = true → s.may (segFor p m) (effAddr m s.gpr) 10 8 false = true →
      FpMove s (.fldM80 p m) ⟨[(7, s.value (segFor p m) (effAddr m s.gpr) 10 80)], s.fpu.sw.top - 1, none, true⟩
  | fild16 {p m v} : s.fpu.empty 7 = true → s.may (segFor p m) (effAddr m s.gpr) 2 2 false = true →
      isInteger v (s.value (segFor p m) (effAddr m s.gpr) 2 16).toInt →
      FpMove s (.fildM16 p m) ⟨[(7, v)], s.fpu.sw.top - 1, none, true⟩
  | fild32 {p m v} : s.fpu.empty 7 = true → s.may (segFor p m) (effAddr m s.gpr) 4 4 false = true →
      isInteger v (s.value (segFor p m) (effAddr m s.gpr) 4 32).toInt →
      FpMove s (.fildM32 p m) ⟨[(7, v)], s.fpu.sw.top - 1, none, true⟩
  | fild64 {p m v} : s.fpu.empty 7 = true → s.may (segFor p m) (effAddr m s.gpr) 8 8 false = true →
      isInteger v (s.value (segFor p m) (effAddr m s.gpr) 8 64).toInt →
      FpMove s (.fildM64 p m) ⟨[(7, v)], s.fpu.sw.top - 1, none, true⟩
  | fld32 {p m x v} : s.fpu.empty 7 = true → s.mayFp (.single p m) = true → s.fpFinite (.single p m) = some x → isNumber v x →
      FpMove s (.fldM32 p m) ⟨[(7, v)], s.fpu.sw.top - 1, none, true⟩
  | fld64 {p m x v} : s.fpu.empty 7 = true → s.mayFp (.double p m) = true → s.fpFinite (.double p m) = some x → isNumber v x →
      FpMove s (.fldM64 p m) ⟨[(7, v)], s.fpu.sw.top - 1, none, true⟩
  | frndint {p} : s.fpu.empty 0 = false → fpClass (s.fpu.st 0) = .zero ∨ fpClass (s.fpu.st 0) = .inf →
      FpMove s (.frndint p) ⟨[(0, s.fpu.st 0)], s.fpu.sw.top, none, true⟩
  | fscale {p} : s.fpu.empty 0 = false → s.fpu.empty 1 = false → fpClass (s.fpu.st 0) = .zero ∨ fpClass (s.fpu.st 0) = .inf →
      fpClass (s.fpu.st 1) = .zero ∨ fpClass (s.fpu.st 1) = .normal →
      FpMove s (.fscale p) ⟨[(0, s.fpu.st 0)], s.fpu.sw.top, none, true⟩
  | fxtract {p e} : s.fpu.empty 0 = false → s.fpu.empty 7 = true → fpClass (s.fpu.st 0) = .normal →
      isInteger e (fpExp (s.fpu.st 0) - 16383) →
      FpMove s (.fxtract p)
        ⟨[(0, e), (7, fpMake (fpNeg (s.fpu.st 0)) 16383 (fpSig (s.fpu.st 0)))], s.fpu.sw.top - 1, none, true⟩
  | fxtractInf {p} : s.fpu.empty 0 = false → s.fpu.empty 7 = true → fpClass (s.fpu.st 0) = .inf →
      FpMove s (.fxtract p) ⟨[(0, 0x7FFF8000000000000000), (7, s.fpu.st 0)], s.fpu.sw.top - 1, none, true⟩
  | fxch {p i} : s.fpu.empty 0 = false → s.fpu.empty i = false →
      FpMove s (.fxchSti p i) ⟨[(0, s.fpu.st i), (i, s.fpu.st 0)], s.fpu.sw.top, none, true⟩
  | fst {p i} : s.fpu.empty 0 = false → FpMove s (.fstSti p i) ⟨[(i, s.fpu.st 0)], s.fpu.sw.top, none, true⟩
  | fstp {p i} : s.fpu.empty 0 = false →
      FpMove s (.fstpSti p i) ⟨[(i, s.fpu.st 0)], s.fpu.sw.top + 1, some 0, true⟩
  | fabs {p} : s.fpu.empty 0 = false →
      FpMove s (.fabs p) ⟨[(0, s.fpu.st 0 &&& ~~~(BitVec.twoPow 80 79))], s.fpu.sw.top, none, true⟩
  | fchs {p} : s.fpu.empty 0 = false →
      FpMove s (.fchs p) ⟨[(0, s.fpu.st 0 ^^^ BitVec.twoPow 80 79)], s.fpu.sw.top, none, true⟩
  | fdecstp {p} : FpMove s (.fdecstp p) ⟨[], s.fpu.sw.top - 1, none, true⟩
  | fnop {p} : FpMove s (.fnop p) ⟨[], s.fpu.sw.top, none, false⟩

/-- The physical registers after the writes. -/
def FpEffect.regs (x : FpEffect) (f : Fpu) : FpRegs := x.writes.foldl (fun r w => r.put (f.phys w.1) w.2) f.regs

/-- The tags after the writes and the pop (R534). -/
def FpEffect.tags (x : FpEffect) (f : Fpu) : Half :=
  let tw := x.writes.foldl (fun tw w => putTag tw (f.phys w.1) (fpTag w.2)) f.tw
  match x.freed with
  | none => tw
  | some i => putTag tw (f.phys i) 3

/-- C3, C2 and C0 as FXAM sets them from the class of ST(0) (R568). -/
def examined : FpClass → Bool × Bool × Bool
  | .unsupported => (false, false, false)
  | .snan => (false, false, true)
  | .qnan => (false, false, true)
  | .normal => (false, true, false)
  | .inf => (false, true, true)
  | .zero => (true, false, false)
  | .denormal => (true, true, false)

end Sys2Proof.Machine

/-- FLD of a register, of real_80, of integers and of a normal or zero real_32 or real_64, FXCH, FST and FSTP to a register, FABS, FCHS,
FDECSTP and FNOP move values exactly, FXTRACT parts a normal number into exponent and significand and an infinity into two, and FRNDINT
and FSCALE leave zeros and infinities: the registers, tags and TOP are those of the move, and no exception flag changes. FSCALE of a
normal number by a normal number or zero delivers it times two to the integer part of that, as arithmetic delivers a result of 64 bits.
FXAM changes C3, C2, C0 and C1 alone: they tell the class and the sign of ST(0), or that it is empty (R534, R537, R540 to R543, R546,
R568 to R575). -/
def Obligations.FpMoveResult : Prop :=
  (∀ (i : Instr) (x : FpEffect) (s : State), s.flat = true → fpReady s = true → FpMove s i x →
    ∃ t, exec i s = .next t ∧ t.fpu.regs = x.regs s.fpu ∧ t.fpu.tw = x.tags s.fpu ∧
      t.fpu.sw = { s.fpu.sw with
        top := x.top, c0 := t.fpu.sw.c0, c1 := !x.c1 && s.fpu.sw.c1, c2 := t.fpu.sw.c2, c3 := t.fpu.sw.c3 }) ∧
  (∀ (p : Pfx) (s : State) (k : Int) (o : FpOut), fpReady s = true → s.fpu.empty 0 = false → s.fpu.empty 1 = false →
    fpClass (s.fpu.st 0) = .normal → (fpClass (s.fpu.st 1) = .zero ∨ fpClass (s.fpu.st 1) = .normal) →
    roundsTo 3 (fpNum (s.fpu.st 1)) k →
    FpDelivers s.fpu 64 { fpNum (s.fpu.st 0) with exp := (fpNum (s.fpu.st 0)).exp + k } o →
    ∃ t, exec (.fscale p) s = .next t ∧ t.fpu.regs = s.fpu.regs.put (s.fpu.phys 0) o.v ∧
      t.fpu.tw = putTag s.fpu.tw (s.fpu.phys 0) (fpTag o.v) ∧
      t.fpu.sw = raisedSw s.fpu o.oe o.ue o.pe o.c1 s.fpu.sw.top t.fpu.sw) ∧
  ∀ (p : Pfx) (s : State), fpReady s = true → ∃ t, exec (.fxam p) s = .next t ∧ t.fpu.regs = s.fpu.regs ∧ t.fpu.tw = s.fpu.tw ∧
    (s.fpu.empty 0 = true → t.fpu.sw = { s.fpu.sw with c3 := true, c2 := false, c1 := t.fpu.sw.c1, c0 := true }) ∧
    (s.fpu.empty 0 = false →
      let c := examined (fpClass (s.fpu.st 0))
      t.fpu.sw = { s.fpu.sw with c3 := c.1, c2 := c.2.1, c1 := fpNeg (s.fpu.st 0), c0 := c.2.2 })

namespace Sys2Proof.Machine

/-- How many registers a comparison pops. -/
def Pops.count : Pops → Nat
  | .zero => 0
  | .one => 1
  | .two => 2

/-- The tags after a comparison: the registers it pops are empty (R534). -/
def Pops.tags (p : Pops) (f : Fpu) : Half :=
  match p with
  | .zero => f.tw
  | .one => putTag f.tw (f.phys 0) 3
  | .two => putTag (putTag f.tw (f.phys 0) 3) (f.phys 1) 3

/-- Two numbers in order, brought to one exponent. -/
def Num.below (x y : Num) : Prop := x.scaled (min x.exp y.exp) < y.scaled (min x.exp y.exp)

/-- ST(0) or a source register holds a NaN. -/
def fpUnordered (s : State) (f : FpCompareForm) : Prop :=
  fpIsNan (s.fpu.st 0) = true ∨ ∃ i, f.src = .st i ∧ fpIsNan (s.fpu.st i) = true

end Sys2Proof.Machine

/-- The x87 comparisons of normal or zero operands tell their exact order: C3 C2 C0 become 000 above, 001 below, 100 equal;
with a NaN in a register and IE masked they become 111. C1 is 0, no register changes, and the P and PP forms pop: the
registers they pop become empty (R534, R559 to R567). -/
def Obligations.FpCompareResult : Prop :=
  ∀ (i : Instr) (f : FpCompareForm) (s : State), IsFpCompare i f → s.flat = true → fpReady s = true →
    s.fpu.empty 0 = false → s.mayFp f.src = true →
    (∀ x y, finiteExt (s.fpu.st 0) = some x → s.fpFinite f.src = some y → ∃ t, exec i s = .next t ∧
      t.fpu.regs = s.fpu.regs ∧ t.fpu.tw = f.pops.tags s.fpu ∧
      t.fpu.sw = { s.fpu.sw with
        c0 := t.fpu.sw.c0, c1 := false, c2 := false, c3 := t.fpu.sw.c3,
        top := s.fpu.sw.top + BitVec.ofNat 3 f.pops.count } ∧
      (y.below x → t.fpu.sw.c3 = false ∧ t.fpu.sw.c0 = false) ∧
      (x.below y → t.fpu.sw.c3 = false ∧ t.fpu.sw.c0 = true) ∧
      (¬ x.below y → ¬ y.below x → t.fpu.sw.c3 = true ∧ t.fpu.sw.c0 = false)) ∧
    (fpUnordered s f → s.fpu.mask 0 = true → ∃ t, exec i s = .next t ∧ t.fpu.regs = s.fpu.regs ∧
      t.fpu.tw = f.pops.tags s.fpu ∧ t.fpu.sw.c3 = true ∧ t.fpu.sw.c2 = true ∧ t.fpu.sw.c0 = true ∧ t.fpu.sw.c1 = false ∧
      t.fpu.sw.top = s.fpu.sw.top + BitVec.ofNat 3 f.pops.count ∧
      (f.quiet = false → t.fpu.sw.ie = true))

namespace Sys2Proof.Machine

/-- FIST and FISTP: the bytes they store, and whether they pop (R544, R545). -/
inductive IsFist : Instr → FpMemForm → Bool → Prop
  | m16 {p m} : IsFist (.fistM16 p m) ⟨p, m, 2, 2⟩ false
  | m32 {p m} : IsFist (.fistM32 p m) ⟨p, m, 4, 4⟩ false
  | p16 {p m} : IsFist (.fistpM16 p m) ⟨p, m, 2, 2⟩ true
  | p32 {p m} : IsFist (.fistpM32 p m) ⟨p, m, 4, 4⟩ true
  | p64 {p m} : IsFist (.fistpM64 p m) ⟨p, m, 8, 8⟩ true

/-- FST and FSTP of real_32 and real_64: the bytes, the bits of exponent and fraction, and whether they pop (R541, R542). -/
inductive IsFst : Instr → FpMemForm → Nat → Nat → Bool → Prop
  | m32 {p m} : IsFst (.fstM32 p m) ⟨p, m, 4, 4⟩ 8 23 false
  | m64 {p m} : IsFst (.fstM64 p m) ⟨p, m, 8, 8⟩ 11 52 false
  | p32 {p m} : IsFst (.fstpM32 p m) ⟨p, m, 4, 4⟩ 8 23 true
  | p64 {p m} : IsFst (.fstpM64 p m) ⟨p, m, 8, 8⟩ 11 52 true

/-- The bits of a real with `e` exponent and `f` fraction bits (R530). -/
def realBits (e f : Nat) (neg : Bool) (exp frac : Nat) : Nat := neg.toNat * 2 ^ (e + f) + exp * 2 ^ f + frac

/-- What a store does: the bits it stores, if it stores, and OE, UE, PE and C1 (R537, R541). -/
structure FpStoreOut where
  bits : Option Nat
  oe : Bool
  ue : Bool
  pe : Bool
  c1 : Bool

open Classical in
/-- The store of ST(0) as a real with `e` exponent and `f` fraction bits (R537, R541): zero and infinity exactly; a finite number
rounded; an overflow or underflow, which stores nothing where it is not masked (and then sets no PE, log 53). -/
inductive FpStores (s : Fpu) (e f : Nat) (v : Ext) : FpStoreOut → Prop
  | zero : fpClass v = .zero → FpStores s e f v ⟨some (realBits e f (fpNeg v) 0 0), false, false, false, false⟩
  | inf : fpClass v = .inf → FpStores s e f v ⟨some (realBits e f (fpNeg v) (2 ^ e - 1) 0), false, false, false, false⟩
  | inRange {k q : Int} {exp frac : Nat} : fpClass v = .normal ∨ fpClass v = .denormal → roundsAt s.rc (f + 1) (fpNum v) k q →
      0 < exp → exp < 2 ^ e - 1 → frac < 2 ^ f →
      Num.isMultiple { neg := fpNeg v, man := 2 ^ f + frac, exp := (exp : Int) - (2 ^ (e - 1) - 1) - f } k q →
      FpStores s e f v ⟨some (realBits e f (fpNeg v) exp frac), false, false, decide (¬ (fpNum v).isMultiple k q),
        (fpNum v).outgrownBy k q⟩
  | overflow {k q} : fpClass v = .normal ∨ fpClass v = .denormal → roundsAt s.rc (f + 1) (fpNum v) k q →
      2 ^ (e - 1) - 1 < topAt (f + 1) k q → s.mask 3 = true →
      FpStores s e f v ⟨some (if toInfinity s.rc (fpNeg v) then realBits e f (fpNeg v) (2 ^ e - 1) 0
        else realBits e f (fpNeg v) (2 ^ e - 2) (2 ^ f - 1)), true, false, true, toInfinity s.rc (fpNeg v)⟩
  | overflowOpen {k q} : fpClass v = .normal ∨ fpClass v = .denormal → roundsAt s.rc (f + 1) (fpNum v) k q →
      2 ^ (e - 1) - 1 < topAt (f + 1) k q → s.mask 3 = false → FpStores s e f v ⟨none, true, false, false, false⟩
  | underflow {k q j} : fpClass v = .normal ∨ fpClass v = .denormal → roundsAt s.rc (f + 1) (fpNum v) k q →
      topAt (f + 1) k q < 2 - 2 ^ (e - 1) → s.mask 4 = true →
      roundsTo s.rc { fpNum v with exp := (fpNum v).exp - (2 - 2 ^ (e - 1) - f) } j →
      FpStores s e f v ⟨some (realBits e f (fpNeg v) 0 j.natAbs), false, decide (¬ (fpNum v).isMultiple j (2 - 2 ^ (e - 1) - f)),
        decide (¬ (fpNum v).isMultiple j (2 - 2 ^ (e - 1) - f)), (fpNum v).outgrownBy j (2 - 2 ^ (e - 1) - f)⟩
  | underflowOpen {k q} : fpClass v = .normal ∨ fpClass v = .denormal → roundsAt s.rc (f + 1) (fpNum v) k q →
      topAt (f + 1) k q < 2 - 2 ^ (e - 1) → s.mask 4 = false → FpStores s e f v ⟨none, false, true, false, false⟩

/-- TOP and the tags after a store that pops, or does not (R534, R542). -/
def storedStack (s : Fpu) (pop : Bool) : BitVec 3 × Half :=
  if pop then (s.sw.top + 1, putTag s.tw (s.phys 0) 3) else (s.sw.top, s.tw)

end Sys2Proof.Machine

/-- FIST and FISTP of a normal number within the range of the destination store the integer it rounds to; PE is set if that
differs from it, and FISTP pops and empties the register; no register changes. FST and FSTP of a zero, an infinity or a finite number
store it as real_32 or real_64, rounded, with OE, UE, PE and C1 as its rounding, overflow or underflow sets them; one that is not masked
stores nothing and pops nothing (and sets no PE, the model's choice, log 53). FSTP stores the ten bytes of a real_80 as they are. FRNDINT
of a normal number leaves the integer it rounds to, a zero with its sign, and sets PE and C1 (R530, R531, R534, R536, R537, R541, R542,
R544, R545, R571). -/
def Obligations.FpStoreInteger : Prop :=
  (∀ (i : Instr) (f : FpMemForm) (pop : Bool) (s : State), IsFist i f pop → s.flat = true → fpReady s = true →
    s.may (segFor f.p f.m) (effAddr f.m s.gpr) f.n f.al true = true → s.fpu.empty 0 = false →
    fpClass (s.fpu.st 0) = .normal →
    let x := fpNum (s.fpu.st 0)
    let e := min 0 x.exp
    ((x.scaled e).natAbs : Int) ≤ (2 ^ (8 * f.n - 1) - 1) * 2 ^ (-e).toNat →
    ∃ (t : State) (k : Int), exec i s = .next t ∧ roundsTo s.fpu.rc x k ∧
      Stored s t (segFor f.p f.m) (effAddr f.m s.gpr) (toLe f.n (BitVec.ofInt 64 k)) ∧
      t.fpu.sw.pe = (s.fpu.sw.pe || decide (x.scaled e ≠ k * 2 ^ (-e).toNat)) ∧
      t.fpu.sw.top = (if pop then s.fpu.sw.top + 1 else s.fpu.sw.top) ∧ t.fpu.regs = s.fpu.regs ∧
      t.fpu.tw = (if pop then putTag s.fpu.tw (s.fpu.phys 0) 3 else s.fpu.tw)) ∧
  (∀ (i : Instr) (g : FpMemForm) (e f : Nat) (pop : Bool) (s : State) (o : FpStoreOut), IsFst i g e f pop → s.flat = true →
    fpReady s = true → s.may (segFor g.p g.m) (effAddr g.m s.gpr) g.n g.al true = true → s.fpu.empty 0 = false →
    FpStores s.fpu e f (s.fpu.st 0) o →
    ∃ t, exec i s = .next t ∧ t.fpu.regs = s.fpu.regs ∧
      t.fpu.tw = (storedStack s.fpu (pop && o.bits.isSome)).2 ∧
      t.fpu.sw = raisedSw s.fpu o.oe o.ue o.pe o.c1 (storedStack s.fpu (pop && o.bits.isSome)).1 t.fpu.sw ∧
      match o.bits with
      | none => t.mem = s.mem
      | some b => Stored s t (segFor g.p g.m) (effAddr g.m s.gpr) (toLe g.n (BitVec.ofNat 64 b))) ∧
  (∀ (p : Pfx) (m : MemOp) (s : State), s.flat = true → fpReady s = true →
    s.may (segFor p m) (effAddr m s.gpr) 10 8 true = true → s.fpu.empty 0 = false →
    ∃ t, exec (.fstpM80 p m) s = .next t ∧ t.fpu.regs = s.fpu.regs ∧ t.fpu.tw = (storedStack s.fpu true).2 ∧
      t.fpu.sw = raisedSw s.fpu false false false false (storedStack s.fpu true).1 t.fpu.sw ∧
      Stored s t (segFor p m) (effAddr m s.gpr) (toLe 10 (s.fpu.st 0))) ∧
  ∀ (p : Pfx) (s : State), fpReady s = true → s.fpu.empty 0 = false → fpClass (s.fpu.st 0) = .normal →
    ∃ (t : State) (k : Int) (v : Ext) (inexact : Bool), exec (.frndint p) s = .next t ∧ roundsTo s.fpu.rc (fpNum (s.fpu.st 0)) k ∧
      (if k = 0 then v = fpMake (fpNeg (s.fpu.st 0)) 0 0 else isInteger v k) ∧
      t.fpu.regs = s.fpu.regs.put (s.fpu.phys 0) v ∧ t.fpu.tw = putTag s.fpu.tw (s.fpu.phys 0) (fpTag v) ∧
      (inexact = true ↔ ¬ (fpNum (s.fpu.st 0)).isMultiple k 0) ∧
      t.fpu.sw = raisedSw s.fpu false false inexact ((fpNum (s.fpu.st 0)).outgrownBy k 0) s.fpu.sw.top t.fpu.sw

/-! ### Encoding -/

/-- Decode and encode agree: in a code segment of either size, with whatever bytes behind it, the encoding of a well-formed
instruction decodes to that instruction and its length (R260 to R282). -/
def Obligations.DecodeEncode : Prop :=
  ∀ (d : Bool) (i : Instr) (rest : List Byte), i.wf = true → decode d (encode d i ++ rest) = .ok i (encode d i).length

/-- Words written out from the encoding tables decode to their instructions: ADD EAX, [EBX+ECX*4+10h]; LOCK CMPXCHG8B [ESI];
JNZ -2; MOV CR4, EAX; FADD ST(3), ST; IRETD (R264 to R277). -/
def Obligations.DecodeSamples : Prop :=
  decode true [0x03, 0x44, 0x8B, 0x10] =
    .ok (.addGvEv (Pfx.base true) .eax (.mem (.m32 (some .ebx) (some (.ecx, 2)) 0x10))) 4 ∧
  decode true [0xF0, 0x0F, 0xC7, 0x0E] = .ok (.cmpxchg8bMq (Pfx.base true).withLock (.m32 (some .esi) none 0)) 4 ∧
  decode false [0x75, 0xFE] = .ok (.jccRel8 (Pfx.base false) .ne 0xFE) 2 ∧
  decode false [0x0F, 0x22, 0xE0] = .ok (.movCr4R (Pfx.base false) .eax) 3 ∧
  decode true [0xDC, 0xC3] = .ok (.faddStiSt (Pfx.base true) 3) 2 ∧
  decode true [0xCF] = .ok (.iret (Pfx.base true)) 1

namespace Sys2Proof.Machine

/-! ### The machine -/

/-- Nothing at the boundary takes the step from the instruction but, perhaps, SMI# or INIT: no test mode, no debug tool, no
pending or asserted event, nothing half done, the Normal state; and the bus is the processor's, every cycle is answered, and no
inquire cycle meets the step. -/
structure Calm (s : State) : Prop where
  clock : s.clock = .normal
  float : s.test.floatTest = false
  tap : s.test.tap.ir ≠ 3 ∧ s.test.tap.ir ≠ 4 ∧ s.test.tap.ir ≠ 5 ∧ s.test.tap.ir ≠ 7
  hdt : s.test.hdt = false ∧ s.test.hdtByTap = false ∧ s.pins.rs = false
  dc : (s.msr.hwcr.extractLsb' 1 3).toNat < 2
  bus : s.pins.hold = false ∧ s.pins.ahold = false ∧ s.pins.boff = false ∧ s.pins.init = false ∧ s.pins.ewbe = true ∧
    s.pins.brdy = true ∧ ramOnly s.plat = true
  idle : s.biu.flush = .idle ∧ s.biu.hung = false ∧ s.intr.acked = none ∧ s.cache.snoops = [] ∧ s.biu.backoff = none
  trap : s.intr.dbTrap = false ∧ s.intr.mcPending = false
  flush : s.intr.flush = false
  nmi : s.intr.nmi = false ∨ s.intr.nmiMasked = true
  intr : s.pins.intr = false ∨ s.flags.ifl = false
  stpclk : s.pins.stpclk = false

/-- The bytes at CS:EIP, each within the limit of CS. -/
def State.codeBytes (s : State) (n : Nat) : List Byte := s.bytes .cs s.eip n

/-- The byte offsets of an instruction lie within CS. -/
def State.codeFits (s : State) (n : Nat) : Prop :=
  s.mode = .smm ∨ ∀ k, k < n → (s.eip + BitVec.ofNat 32 k).toNat ≤ s.seg.cs.byteLimit

/-- What the step notes when an instruction begins. -/
def freshScratch (s : State) (fop : BitVec 11) : Scratch :=
  { start := s.eip, hit0 := false, hit1 := false, hit2 := false, hit3 := false, tf := s.flags.tf, noTrap := false,
    rfLoaded := false, afterSs := s.intr.shadow == .ss, fop := fop }

end Sys2Proof.Machine

/-- A step runs the decoded instruction: when nothing at the boundary takes the step and the bytes at CS:EIP decode to a
well-formed instruction, the step is `exec` of it in the state that knows the next EIP, with the time-stamp counter
advanced and the last instruction's hold on interrupts gone, and then what the bus interface makes of it. At the end RF is
cleared where the instruction neither loaded it nor is to be followed by a debug trap; where the bus is the processor's and
every cycle is answered, the bus interface changes only its own record (R15, R18, R61, R280, R671, R680). -/
def Obligations.StepRunsDecoded : Prop :=
  (∀ (i : Instr) (n : Nat) (s : State), Calm s → s.intr.smi = false → s.intr.init = false → s.flat = true →
    s.cache.marks = [] → n ≤ 15 → s.codeFits n → decode s.code32 (s.codeBytes n) = .ok i n → i.wf = true →
    ∃ u, (step s = match finishOutcome (exec i u) with
        | .next t => .next (settle (openStep s) t)
        | .fault f => .fault f
        | .refused r => .refused r) ∧
      u = { s with
        nextEip := s.eip + BitVec.ofNat 32 n, msr := { s.msr with tsc := u.msr.tsc }, scr := freshScratch s u.scr.fop,
        intr := { s.intr with shadow := .none, grantExit := false, nmiFirst := false, handling := none },
        smm := { s.smm with lastIo := none }, cache := u.cache, draws := u.draws, biu := u.biu } ∧
      u.msr.tsc = s.msr.tsc + BitVec.ofNat 64 (Config.clocks s.draws + 1)) ∧
  (∀ t : State, t.scr.noTrap = false → t.scr.rfLoaded = false → t.scr.tf = false → t.hits = [] →
    finish t = { t with flags := { t.flags with rf := false } }) ∧
  ∀ s t : State, Calm s → t.cache.snoops = [] → t.biu.backoff = none →
    settle (openStep s) t = { t with
      biu := { t.biu with want := (settle (openStep s) t).biu.want, ewbeWait := false } }

/-- The values after RESET: the registers of R70, every cache and TLB entry invalid, every latch clear (R70). -/
def Obligations.ResetValues : Prop :=
  let s := State.reset
  s.seg.cs.base + s.eip = 0xFFFFFFF0 ∧ s.flags.toWord = 0x00000002 ∧
  (∀ r, r ≠ .edx → s.reg r = 0) ∧ s.gpr.edx = 0x00000500 + s.plat.stepping.setWidth 32 ∧
  (∀ k, s.fpu.regs.get k = 0) ∧ s.fpu.fip = 0 ∧ s.fpu.fcs = 0 ∧ s.fpu.fop = 0 ∧
  s.seg.cs.sel = 0xF000 ∧ (∀ r, r ≠ .cs → (s.seg.get r).sel = 0) ∧
  s.sys.gdtr = { base := 0, limit := 0xFFFF } ∧ s.sys.idtr = { base := 0, limit := 0xFFFF } ∧
  s.sys.tr.sel = 0 ∧ s.sys.ldtr.sel = 0 ∧
  s.cr = { cr0 := 0x60000010, cr2 := 0, cr3 := 0, cr4 := 0 } ∧
  s.dr = { dr0 := 0, dr1 := 0, dr2 := 0, dr3 := 0, dr6 := 0xFFFF0FF0, dr7 := 0x00000400 } ∧
  s.msr = { mcar := 0, mctr := 0, tsc := 0, hwcr := 0 } ∧ s.smm.base = 0x00030000 ∧ s.smm.active = false ∧
  s.cache = { tlb := [], dlines := [], ilines := [], prefetch := [], marks := [], foreign := false, events := [],
              snoops := [], hit := false, hitm := false, apchk := false } ∧
  s.intr = { flush := false, smi := false, init := false, nmi := false, nmiMasked := false, shadow := .none,
             mcPending := false, dbTrap := false, grantExit := false, nmiFirst := false, acked := none, handling := none } ∧
  s.clock = .normal

/-- After RESET memory is in its canonical form and the control registers are legal (R34, R37, R57). -/
def Obligations.ResetInvariant : Prop := State.reset.memOk = true ∧ State.reset.crOk = true

/-- Every step keeps memory in its canonical form and the control registers legal: no reserved bit of CR4, no paging without
protection, no NW without CD (R34, R37, R57). -/
def Obligations.StepKeepsInvariant : Prop :=
  ∀ s t : State, s.memOk = true → s.crOk = true → step s = .next t → t.memOk = true ∧ t.crOk = true

namespace Sys2Proof.Machine

/-- A doubleword of memory. -/
def State.dword (s : State) (a : Nat) : Word := ofLe 32 (s.mem.reads a 4)

/-- An access is permitted by the effective U/S and W/R bits (R125). -/
def pageAllows (s : State) (a : Access) (us wr : Bool) : Prop :=
  (a.user = true → us = true) ∧ (a.write = true → wr = true ∨ (a.user = false ∧ s.wp = false))

/-- The page fault of an access: its error code names a protection violation, a write and a user access, and CR2 gets the
address (R127). -/
def isPageFault (x : Exc) (la : Word) (a : Access) (present : Bool) : Prop :=
  x.vec = 14 ∧ x.cr2 = some la ∧
  x.err = some (BitVec.ofNat 16 (present.toNat + 2 * a.write.toNat + 4 * a.user.toNat))

end Sys2Proof.Machine

/-- The walk of an address that no TLB entry maps and no cached line knows: the physical address from the directory entry and,
but for a 4-Mbyte page, the table entry, with Accessed set in both and Dirty in the last for a write; a page fault where an
entry is not present or the access is not permitted, with Accessed set in the directory entry of a 4-Kbyte page alone, or
where a 4-Mbyte page has its reserved bits set (R120, R123, R125 to R127). -/
def Obligations.PageWalk : Prop :=
  ∀ (la : Word) (a : Access) (s : State), s.pg = true → s.cache.foreign = false → ramOnly s.plat = true →
    s.cache.tlbFind la = none → s.cache.lineXlat la a = none →
    let a1 := (s.cr.cr3 &&& 0xFFFFF000).toNat + 4 * (la.toNat / 4194304)
    let pde := s.dword a1
    let a2 := (pde &&& 0xFFFFF000).toNat + 4 * (la.toNat / 4096 % 1024)
    let pte := s.dword a2
    let ok := pageAllows s a (pde.getLsbD 2 && pte.getLsbD 2) (pde.getLsbD 1 && pte.getLsbD 1)
    let okBig := pageAllows s a (pde.getLsbD 2) (pde.getLsbD 1)
    (pde.getLsbD 0 = false → ∃ x t, translate la a s = .error (.exc x) t ∧ isPageFault x la a false ∧
      t = { s with cache := t.cache }) ∧
    (pde.getLsbD 0 = true → (s.pse && pde.getLsbD 7) = true →
      (pde.extractLsb' 12 10 ≠ 0 ∨ ¬ okBig → ∃ x t, translate la a s = .error (.exc x) t ∧ isPageFault x la a true ∧
        t = { s with cache := t.cache }) ∧
      (pde.extractLsb' 12 10 = 0 → okBig → ∃ x t, translate la a s = .ok x t ∧
        x.pa = (pde &&& 0xFFC00000).toNat + la.toNat % 4194304 ∧
        t = { s with mem := t.mem, cache := t.cache, draws := t.draws } ∧
        ∀ b, t.mem.read b =
          if b = a1 then s.mem.read b ||| (if a.write then 0x60 else 0x20) else s.mem.read b)) ∧
    (pde.getLsbD 0 = true → (s.pse && pde.getLsbD 7) = false → a1 ≠ a2 →
      ((pte.getLsbD 0 = false ∨ ¬ ok) → ∃ x t, translate la a s = .error (.exc x) t ∧
        isPageFault x la a (pte.getLsbD 0) ∧ t = { s with mem := t.mem, cache := t.cache } ∧
        ∀ b, t.mem.read b = if b = a1 then s.mem.read b ||| 0x20 else s.mem.read b) ∧
      (pte.getLsbD 0 = true → ok → ∃ x t, translate la a s = .ok x t ∧
        x.pa = (pte &&& 0xFFFFF000).toNat + la.toNat % 4096 ∧
        t = { s with mem := t.mem, cache := t.cache, draws := t.draws } ∧
        ∀ b, t.mem.read b =
          if b = a1 then s.mem.read b ||| 0x20
          else if b = a2 then s.mem.read b ||| (if a.write then 0x60 else 0x20)
          else s.mem.read b))

namespace Sys2Proof.Machine

/-- A state but for the time-stamp counter, the draws, and the record of the bus interface. -/
def laterThan (s t : State) : State :=
  { s with
    msr := { s.msr with tsc := t.msr.tsc }, draws := t.draws, biu := t.biu,
    cache := { s.cache with events := t.cache.events, hitm := t.cache.hitm, apchk := t.cache.apchk } }

/-- The slots of a segment register, LDTR or TR in the save area hold it (R712). -/
def holdsSeg (t : State) (r : SegReg) (sel attr base limit : Nat) : Prop :=
  t.slot sel = r.sel.setWidth 32 ∧ t.slot attr = r.attr.toBits.setWidth 32 ∧ t.slot base = r.base ∧
    t.slot limit = r.limit.setWidth 32

/-- The save area of `t` holds the registers of `s`, the revision, and what the restart slots begin with (R708, R709, R712, R714,
R716). -/
structure Saves (s t : State) : Prop where
  gpr : savedGpr t = s.gpr
  eip : t.slot 0xFFF0 = s.eip
  flags : t.slot 0xFFF4 = s.flags.toWord
  cr : t.slot 0xFFFC = s.cr.cr0 ∧ t.slot 0xFF14 = s.cr.cr2 ∧ t.slot 0xFFF8 = s.cr.cr3 ∧ t.slot 0xFF10 = s.cr.cr4
  dr : t.slot 0xFFCC = s.dr.dr6 ∧ t.slot 0xFFC8 = s.dr.dr7
  idtr : t.slot 0xFF90 = s.sys.idtr.base ∧ t.slot 0xFF8C = s.sys.idtr.limit.setWidth 32
  gdtr : t.slot 0xFF88 = s.sys.gdtr.base ∧ t.slot 0xFF84 = s.sys.gdtr.limit.setWidth 32
  tr : holdsSeg t s.sys.tr 0xFFC4 0xFF80 0xFF7C 0xFF78
  ldtr : holdsSeg t s.sys.ldtr 0xFFC0 0xFF74 0xFF70 0xFF6C
  es : holdsSeg t s.seg.es 0xFFA8 0xFF2C 0xFF28 0xFF24
  cs : holdsSeg t s.seg.cs 0xFFAC 0xFF38 0xFF34 0xFF30
  ss : holdsSeg t s.seg.ss 0xFFB0 0xFF44 0xFF40 0xFF3C
  ds : holdsSeg t s.seg.ds 0xFFB4 0xFF50 0xFF4C 0xFF48
  fs : holdsSeg t s.seg.fs 0xFFB8 0xFF5C 0xFF58 0xFF54
  gs : holdsSeg t s.seg.gs 0xFFBC 0xFF68 0xFF64 0xFF60
  base : t.slot 0xFEF8 = s.smm.base
  revision : t.slot 0xFEFC = 0x00030000
  restart : (t.slot 0xFF00).setWidth 16 = (0 : Half) ∧ (t.slot 0xFF02).getLsbD 0 = decide (s.clock = .halt)
  noIo : s.smm.lastIo = none → (t.slot 0xFFA4).getLsbD 1 = false
  io : ∀ x, s.smm.lastIo = some x → t.slot 0xFF9C = x.eip ∧ t.slot 0xFF0C = x.esi ∧ t.slot 0xFF08 = x.ecx ∧
    t.slot 0xFF04 = x.edi ∧ t.slot 0xFFA4 = BitVec.ofNat 32 (65536 * x.port.toNat + 2 + x.input.toNat)

/-- A segment register as SMM entry leaves it: 4 Gbytes, 16-bit, expand-up (R703). -/
def smmSegment (r : SegReg) (sel : Half) (base : Word) : Prop :=
  r.sel = sel ∧ r.base = base ∧ r.byteLimit = 0xFFFFFFFF ∧ r.attr.db = false ∧ r.attr.expandDown = false

/-- The processor is awake, halted or shut down, and at this boundary nothing takes the step from the instruction but, perhaps, SMI#
or INIT. -/
def CalmAwake (s : State) : Prop :=
  Calm { s with clock := .normal } ∧ (s.clock = .normal ∨ s.clock = .halt ∨ s.clock = .shutdown)

/-- No SMI# and no INIT is pending. -/
def noReset (s : State) : Prop := s.intr.smi = false ∧ s.intr.init = false

/-- The step delivers an event in the state `u`, which is this one but for what recognising the event changes; and then come the bus
interface's own records (R620). -/
def Delivers (s u : State) (vec : Byte) (kind : EventKind) : Prop :=
  ∃ t, takeEvent 8 (boundaryEvent s vec kind) u = .next t ∧ step s = .next (settle (openStep s) t)

/-- The state an event is delivered in: Normal, at the instruction that would have come next (R741). -/
def deliveredIn (s u : State) : State :=
  { laterThan s u with clock := .normal, scr := { s.scr with start := s.eip }, smm := { s.smm with lastIo := none } }

/-- A special or acknowledge cycle in the record of the bus, after which nothing fetched is old (R145, R151). -/
def afterCycle (s : State) (e : BusEvent) : State :=
  { s with bus := e :: s.bus, cache := { s.cache with prefetch := [], marks := [] } }

end Sys2Proof.Machine

/-- What the boundary does in place of an instruction, in the Normal state, and where it says so from Halt and Shutdown, which it
leaves. A pending SMI# enters SMM: the registers go to the save area, and CS:EIP,
the segment registers, CR0, CR4, EFLAGS and DR7 become those of SMM. A pending INIT outside SMM resets the processor but for
the caches, memory, the x87 state, the MSRs and CD and NW (the hidden parts of LDTR and TR are the model's choice, log 7). A
FLUSH# writes one modified line back in each step, then empties the caches with the acknowledge cycle. An NMI enters vector 2 and masks
NMI; INTR enters the vector of its acknowledge cycles; a debug trap enters vector 1, a machine check vector 18. STPCLK# enters Stop Grant
with its special cycle. A halted or shut-down processor with nothing pending, and one in Stop Grant while STPCLK# is asserted, only lets
time pass (R71, R222, R612, R630, R654, R657, R658, R674, R701 to R703, R708 to R716, R741 to R744, R780). The model's choices besides are
the order of the bits in an attribute slot (log 18), that a debug trap waits for the shadow of a load of SS alone (log 32), that a machine
check passes every shadow but that of INIT (log 41), and that each step of a FLUSH# writes one line back (log 50). -/
def Obligations.BoundaryEvents : Prop :=
  (∀ s : State, CalmAwake s → s.intr.shadow = .none → s.intr.smi = true → s.smm.active = false → s.cache.foreign = false →
    oneMap s.plat = true →
    ∃ t, step s = .next t ∧ t.clock = .normal ∧ t.smm.active = true ∧ t.smm.base = s.smm.base ∧ t.intr.nmiMasked = true ∧
      t.gpr = s.gpr ∧ t.eip = 0x8000 ∧ t.flags = Flags.reset ∧ t.sys = s.sys ∧
      smmSegment t.seg.cs (s.smm.base.extractLsb' 4 16) s.smm.base ∧
      (∀ r, r ≠ .cs → smmSegment (t.seg.get r) 0 0) ∧
      t.cr = { s.cr with cr0 := s.cr.cr0 &&& 0x7FFFFFF2, cr4 := 0 } ∧ t.dr = { s.dr with dr6 := t.dr.dr6, dr7 := 0x400 } ∧
      t.fpu = s.fpu ∧ Saves s t ∧
      ∀ a, (∀ k, k < 512 → a ≠ (s.smm.base + BitVec.ofNat 32 (0xFE00 + k)).toNat) → t.mem.read a = s.mem.read a) ∧
  (∀ s : State, CalmAwake s → s.intr.shadow = .none → s.intr.smi = false → s.intr.init = true → s.smm.active = false →
    ∃ t, step s = .next t ∧ t.clock = .normal ∧ t.seg.cs.base + t.eip = 0xFFFFFFF0 ∧ t.flags = Flags.reset ∧ t.gpr = Gpr.reset s.plat ∧
      t.seg = SegFile.reset ∧ t.sys = SysRegs.reset ∧ t.dr = DebugRegs.reset ∧
      t.cr = { cr0 := 0x10 ||| (s.cr.cr0 &&& 0x60000000), cr2 := 0, cr3 := 0, cr4 := 0 } ∧
      t.fpu = s.fpu ∧ t.mem = s.mem ∧ t.cache.tlb = [] ∧ t.smm = { s.smm with lastIo := none } ∧
      t.msr = { s.msr with tsc := t.msr.tsc } ∧ SameLines s t) ∧
  (∀ s : State, Calm { s with intr := { s.intr with flush := false } } → s.intr.shadow = .none → s.intr.flush = true →
    s.cache.foreign = false →
    ((∃ l ∈ s.cache.dlines, l.mesi = .modified) → ∃ t, step s = .next t ∧ t.intr.flush = false ∧ t.mem = s.mem ∧
      t.cache.ilines = s.cache.ilines ∧ t.bus = s.bus ∧
      ∃ l ∈ s.cache.dlines, l.mesi = .modified ∧ t.biu.flush = .copying [l.line] ∧
        (∀ n, t.cache.dFind n = if n = l.line then (s.cache.dFind n).map fun x => { x with back := none } else s.cache.dFind n) ∧
        .cycle (writebackCycle s l.line) ∈ t.cache.events ∧ ∀ a, a / 32 = l.line → t.mainByte a = s.mem.read a) ∧
    ((∀ l ∈ s.cache.dlines, l.mesi ≠ .modified) → ∃ t, step s = .next t ∧ t.intr.flush = false ∧ t.mem = s.mem ∧
      t.cache.dlines = [] ∧ t.cache.ilines = [] ∧ t.bus = .special 0xEF 0 0 :: s.bus ∧ t.biu.flush = .idle)) ∧
  (∀ s : State, Calm { s with biu := { s.biu with flush := .idle } } → s.biu.flush = .acknowledge →
    ∃ t, step s = .next t ∧ t.bus = .special 0xEF 0 0 :: s.bus ∧ t.biu.flush = .idle ∧ t.mem = s.mem ∧
      t.gpr = s.gpr ∧ t.eip = s.eip) ∧
  (∀ s : State, CalmAwake s → s.clock ≠ .normal → s.intr.shadow = .none → noReset s → ∃ t, step s = .next t ∧ t = laterThan s t) ∧
  (∀ s : State, CalmAwake { s with intr := { s.intr with nmi := false } } → s.intr.shadow = .none ∨ s.intr.shadow = .sti →
    noReset s → s.intr.nmi = true → s.intr.nmiMasked = false →
    ∃ u, u = { deliveredIn s u with intr := { s.intr with nmi := false, nmiMasked := true, nmiFirst := false } } ∧
      Delivers s u 2 .external) ∧
  (∀ s : State, CalmAwake { s with pins := { s.pins with intr := false } } → s.clock ≠ .shutdown → s.intr.shadow = .none →
    noReset s → s.pins.intr = true → s.flags.ifl = true →
    ∃ u, u = { afterCycle (deliveredIn s u) (.intAck s.pins.vector) with intr := { s.intr with nmiFirst := false } } ∧
      Delivers s u s.pins.vector .external) ∧
  (∀ s : State, CalmAwake { s with intr := { s.intr with dbTrap := false } } → s.intr.shadow ≠ .ss → s.intr.smi = false →
    s.clock ≠ .shutdown → s.intr.dbTrap = true →
    ∃ u, u = { deliveredIn s u with intr := { s.intr with dbTrap := false, nmiFirst := false } } ∧ Delivers s u 1 .exception) ∧
  (∀ s : State, Calm { s with intr := { s.intr with mcPending := false } } → s.intr.shadow ≠ .init → s.intr.mcPending = true →
    ∃ u, u = { deliveredIn s u with smm := s.smm, intr := { s.intr with mcPending := false, nmiFirst := false } } ∧
      Delivers s u 18 .external) ∧
  (∀ s : State, CalmAwake { s with pins := { s.pins with stpclk := false } } → s.intr.shadow = .none ∨ s.intr.shadow = .sti →
    noReset s → s.pins.stpclk = true → s.intr.grantExit = false →
    ∃ t f, step s = .next t ∧ GrantFrom.clock f = s.clock ∧
      t = { afterCycle (laterThan s t) (.special 0xFB 0x10 0) with clock := .stopGrant f }) ∧
  ∀ (s : State) (f : GrantFrom), Calm { s with clock := .normal, pins := { s.pins with stpclk := false } } →
    s.clock = .stopGrant f → s.pins.stpclk = true → ∃ t, step s = .next t ∧ t = laterThan s t
end

