-- ==== Sys2Proof/Laws/Bits.lean ====
section
/-! SUPPORT. Byte order: how many bytes a value has, and that reading them back gives the value. -/
namespace Sys2Proof

theorem giveLe_length (n : Nat) : ∀ v : Nat, (giveLe n v).length = n := by
  induction n with
  | zero => intro v; rfl
  | succ n ih => intro v; simp [giveLe, ih]

end Sys2Proof

namespace Sys2Proof.Machine

open Sys2Proof

@[simp] theorem toLe_length (n : Nat) {w : Nat} (v : BitVec w) : (toLe n v).length = n := giveLe_length n v.toNat

theorem leNat_giveLe (n : Nat) : ∀ v : Nat, leNat (giveLe n v) = v % 256 ^ n := by
  induction n with
  | zero => intro v; simp [giveLe, leNat, Nat.mod_one]
  | succ n ih =>
    intro v
    have e : v % 256 ^ (n + 1) = v % 256 + 256 * (v / 256 % 256 ^ n) := by
      rw [show (256 : Nat) ^ (n + 1) = 256 * 256 ^ n from Nat.pow_succ', Nat.mod_mul]
    rw [giveLe, leNat, ih, BitVec.toNat_ofNat, e]

/-- A value that fits its bytes is read back (R101). -/
theorem ofLe_toLe {w : Nat} (n : Nat) (v : BitVec w) (h : w ≤ 8 * n) : ofLe w (toLe n v) = v := by
  have hp : (256 : Nat) ^ n = 2 ^ (8 * n) := by rw [Nat.pow_mul]
  have : v.toNat < 256 ^ n := by
    rw [hp]
    exact Nat.lt_of_lt_of_le v.isLt (Nat.pow_le_pow_right (by decide) h)
  apply BitVec.eq_of_toNat_eq
  rw [ofLe, toLe, leNat_giveLe, Nat.mod_eq_of_lt this, BitVec.toNat_ofNat, Nat.mod_eq_of_lt v.isLt]

end Sys2Proof.Machine
end

