-- ==== Sys2Proof/Laws/State.lean ====
section
/-! SUPPORT. What each field reads after each update: true by unfolding, so that no later proof opens a record. -/
namespace Sys2Proof.Machine

@[simp] theorem State.setGpr_gpr (s : State) (v : Gpr) : (s.setGpr v).gpr = v := rfl
@[simp] theorem State.setGpr_eip (s : State) (v : Gpr) : (s.setGpr v).eip = s.eip := rfl
@[simp] theorem State.setGpr_nextEip (s : State) (v : Gpr) : (s.setGpr v).nextEip = s.nextEip := rfl
@[simp] theorem State.setGpr_flags (s : State) (v : Gpr) : (s.setGpr v).flags = s.flags := rfl
@[simp] theorem State.setGpr_cpl (s : State) (v : Gpr) : (s.setGpr v).cpl = s.cpl := rfl
@[simp] theorem State.setGpr_seg (s : State) (v : Gpr) : (s.setGpr v).seg = s.seg := rfl
@[simp] theorem State.setGpr_sys (s : State) (v : Gpr) : (s.setGpr v).sys = s.sys := rfl
@[simp] theorem State.setGpr_cr (s : State) (v : Gpr) : (s.setGpr v).cr = s.cr := rfl
@[simp] theorem State.setGpr_dr (s : State) (v : Gpr) : (s.setGpr v).dr = s.dr := rfl
@[simp] theorem State.setGpr_msr (s : State) (v : Gpr) : (s.setGpr v).msr = s.msr := rfl
@[simp] theorem State.setGpr_fpu (s : State) (v : Gpr) : (s.setGpr v).fpu = s.fpu := rfl
@[simp] theorem State.setGpr_mem (s : State) (v : Gpr) : (s.setGpr v).mem = s.mem := rfl
@[simp] theorem State.setGpr_cache (s : State) (v : Gpr) : (s.setGpr v).cache = s.cache := rfl
@[simp] theorem State.setGpr_other (s : State) (v : Gpr) : (s.setGpr v).other = s.other := rfl
@[simp] theorem State.setGpr_smm (s : State) (v : Gpr) : (s.setGpr v).smm = s.smm := rfl
@[simp] theorem State.setGpr_intr (s : State) (v : Gpr) : (s.setGpr v).intr = s.intr := rfl
@[simp] theorem State.setGpr_scr (s : State) (v : Gpr) : (s.setGpr v).scr = s.scr := rfl
@[simp] theorem State.setGpr_clock (s : State) (v : Gpr) : (s.setGpr v).clock = s.clock := rfl
@[simp] theorem State.setGpr_pins (s : State) (v : Gpr) : (s.setGpr v).pins = s.pins := rfl
@[simp] theorem State.setGpr_test (s : State) (v : Gpr) : (s.setGpr v).test = s.test := rfl
@[simp] theorem State.setGpr_bus (s : State) (v : Gpr) : (s.setGpr v).bus = s.bus := rfl
@[simp] theorem State.setGpr_biu (s : State) (v : Gpr) : (s.setGpr v).biu = s.biu := rfl
@[simp] theorem State.setGpr_draws (s : State) (v : Gpr) : (s.setGpr v).draws = s.draws := rfl
@[simp] theorem State.setGpr_plat (s : State) (v : Gpr) : (s.setGpr v).plat = s.plat := rfl
@[simp] theorem State.setEip_gpr (s : State) (v : Word) : (s.setEip v).gpr = s.gpr := rfl
@[simp] theorem State.setEip_eip (s : State) (v : Word) : (s.setEip v).eip = v := rfl
@[simp] theorem State.setEip_nextEip (s : State) (v : Word) : (s.setEip v).nextEip = s.nextEip := rfl
@[simp] theorem State.setEip_flags (s : State) (v : Word) : (s.setEip v).flags = s.flags := rfl
@[simp] theorem State.setEip_cpl (s : State) (v : Word) : (s.setEip v).cpl = s.cpl := rfl
@[simp] theorem State.setEip_seg (s : State) (v : Word) : (s.setEip v).seg = s.seg := rfl
@[simp] theorem State.setEip_sys (s : State) (v : Word) : (s.setEip v).sys = s.sys := rfl
@[simp] theorem State.setEip_cr (s : State) (v : Word) : (s.setEip v).cr = s.cr := rfl
@[simp] theorem State.setEip_dr (s : State) (v : Word) : (s.setEip v).dr = s.dr := rfl
@[simp] theorem State.setEip_msr (s : State) (v : Word) : (s.setEip v).msr = s.msr := rfl
@[simp] theorem State.setEip_fpu (s : State) (v : Word) : (s.setEip v).fpu = s.fpu := rfl
@[simp] theorem State.setEip_mem (s : State) (v : Word) : (s.setEip v).mem = s.mem := rfl
@[simp] theorem State.setEip_cache (s : State) (v : Word) : (s.setEip v).cache = s.cache := rfl
@[simp] theorem State.setEip_other (s : State) (v : Word) : (s.setEip v).other = s.other := rfl
@[simp] theorem State.setEip_smm (s : State) (v : Word) : (s.setEip v).smm = s.smm := rfl
@[simp] theorem State.setEip_intr (s : State) (v : Word) : (s.setEip v).intr = s.intr := rfl
@[simp] theorem State.setEip_scr (s : State) (v : Word) : (s.setEip v).scr = s.scr := rfl
@[simp] theorem State.setEip_clock (s : State) (v : Word) : (s.setEip v).clock = s.clock := rfl
@[simp] theorem State.setEip_pins (s : State) (v : Word) : (s.setEip v).pins = s.pins := rfl
@[simp] theorem State.setEip_test (s : State) (v : Word) : (s.setEip v).test = s.test := rfl
@[simp] theorem State.setEip_bus (s : State) (v : Word) : (s.setEip v).bus = s.bus := rfl
@[simp] theorem State.setEip_biu (s : State) (v : Word) : (s.setEip v).biu = s.biu := rfl
@[simp] theorem State.setEip_draws (s : State) (v : Word) : (s.setEip v).draws = s.draws := rfl
@[simp] theorem State.setEip_plat (s : State) (v : Word) : (s.setEip v).plat = s.plat := rfl
@[simp] theorem State.setNextEip_gpr (s : State) (v : Word) : (s.setNextEip v).gpr = s.gpr := rfl
@[simp] theorem State.setNextEip_eip (s : State) (v : Word) : (s.setNextEip v).eip = s.eip := rfl
@[simp] theorem State.setNextEip_nextEip (s : State) (v : Word) : (s.setNextEip v).nextEip = v := rfl
@[simp] theorem State.setNextEip_flags (s : State) (v : Word) : (s.setNextEip v).flags = s.flags := rfl
@[simp] theorem State.setNextEip_cpl (s : State) (v : Word) : (s.setNextEip v).cpl = s.cpl := rfl
@[simp] theorem State.setNextEip_seg (s : State) (v : Word) : (s.setNextEip v).seg = s.seg := rfl
@[simp] theorem State.setNextEip_sys (s : State) (v : Word) : (s.setNextEip v).sys = s.sys := rfl
@[simp] theorem State.setNextEip_cr (s : State) (v : Word) : (s.setNextEip v).cr = s.cr := rfl
@[simp] theorem State.setNextEip_dr (s : State) (v : Word) : (s.setNextEip v).dr = s.dr := rfl
@[simp] theorem State.setNextEip_msr (s : State) (v : Word) : (s.setNextEip v).msr = s.msr := rfl
@[simp] theorem State.setNextEip_fpu (s : State) (v : Word) : (s.setNextEip v).fpu = s.fpu := rfl
@[simp] theorem State.setNextEip_mem (s : State) (v : Word) : (s.setNextEip v).mem = s.mem := rfl
@[simp] theorem State.setNextEip_cache (s : State) (v : Word) : (s.setNextEip v).cache = s.cache := rfl
@[simp] theorem State.setNextEip_other (s : State) (v : Word) : (s.setNextEip v).other = s.other := rfl
@[simp] theorem State.setNextEip_smm (s : State) (v : Word) : (s.setNextEip v).smm = s.smm := rfl
@[simp] theorem State.setNextEip_intr (s : State) (v : Word) : (s.setNextEip v).intr = s.intr := rfl
@[simp] theorem State.setNextEip_scr (s : State) (v : Word) : (s.setNextEip v).scr = s.scr := rfl
@[simp] theorem State.setNextEip_clock (s : State) (v : Word) : (s.setNextEip v).clock = s.clock := rfl
@[simp] theorem State.setNextEip_pins (s : State) (v : Word) : (s.setNextEip v).pins = s.pins := rfl
@[simp] theorem State.setNextEip_test (s : State) (v : Word) : (s.setNextEip v).test = s.test := rfl
@[simp] theorem State.setNextEip_bus (s : State) (v : Word) : (s.setNextEip v).bus = s.bus := rfl
@[simp] theorem State.setNextEip_biu (s : State) (v : Word) : (s.setNextEip v).biu = s.biu := rfl
@[simp] theorem State.setNextEip_draws (s : State) (v : Word) : (s.setNextEip v).draws = s.draws := rfl
@[simp] theorem State.setNextEip_plat (s : State) (v : Word) : (s.setNextEip v).plat = s.plat := rfl
@[simp] theorem State.setFlags_gpr (s : State) (v : Flags) : (s.setFlags v).gpr = s.gpr := rfl
@[simp] theorem State.setFlags_eip (s : State) (v : Flags) : (s.setFlags v).eip = s.eip := rfl
@[simp] theorem State.setFlags_nextEip (s : State) (v : Flags) : (s.setFlags v).nextEip = s.nextEip := rfl
@[simp] theorem State.setFlags_flags (s : State) (v : Flags) : (s.setFlags v).flags = v := rfl
@[simp] theorem State.setFlags_cpl (s : State) (v : Flags) : (s.setFlags v).cpl = s.cpl := rfl
@[simp] theorem State.setFlags_seg (s : State) (v : Flags) : (s.setFlags v).seg = s.seg := rfl
@[simp] theorem State.setFlags_sys (s : State) (v : Flags) : (s.setFlags v).sys = s.sys := rfl
@[simp] theorem State.setFlags_cr (s : State) (v : Flags) : (s.setFlags v).cr = s.cr := rfl
@[simp] theorem State.setFlags_dr (s : State) (v : Flags) : (s.setFlags v).dr = s.dr := rfl
@[simp] theorem State.setFlags_msr (s : State) (v : Flags) : (s.setFlags v).msr = s.msr := rfl
@[simp] theorem State.setFlags_fpu (s : State) (v : Flags) : (s.setFlags v).fpu = s.fpu := rfl
@[simp] theorem State.setFlags_mem (s : State) (v : Flags) : (s.setFlags v).mem = s.mem := rfl
@[simp] theorem State.setFlags_cache (s : State) (v : Flags) : (s.setFlags v).cache = s.cache := rfl
@[simp] theorem State.setFlags_other (s : State) (v : Flags) : (s.setFlags v).other = s.other := rfl
@[simp] theorem State.setFlags_smm (s : State) (v : Flags) : (s.setFlags v).smm = s.smm := rfl
@[simp] theorem State.setFlags_intr (s : State) (v : Flags) : (s.setFlags v).intr = s.intr := rfl
@[simp] theorem State.setFlags_scr (s : State) (v : Flags) : (s.setFlags v).scr = s.scr := rfl
@[simp] theorem State.setFlags_clock (s : State) (v : Flags) : (s.setFlags v).clock = s.clock := rfl
@[simp] theorem State.setFlags_pins (s : State) (v : Flags) : (s.setFlags v).pins = s.pins := rfl
@[simp] theorem State.setFlags_test (s : State) (v : Flags) : (s.setFlags v).test = s.test := rfl
@[simp] theorem State.setFlags_bus (s : State) (v : Flags) : (s.setFlags v).bus = s.bus := rfl
@[simp] theorem State.setFlags_biu (s : State) (v : Flags) : (s.setFlags v).biu = s.biu := rfl
@[simp] theorem State.setFlags_draws (s : State) (v : Flags) : (s.setFlags v).draws = s.draws := rfl
@[simp] theorem State.setFlags_plat (s : State) (v : Flags) : (s.setFlags v).plat = s.plat := rfl
@[simp] theorem State.setCpl_gpr (s : State) (v : BitVec 2) : (s.setCpl v).gpr = s.gpr := rfl
@[simp] theorem State.setCpl_eip (s : State) (v : BitVec 2) : (s.setCpl v).eip = s.eip := rfl
@[simp] theorem State.setCpl_nextEip (s : State) (v : BitVec 2) : (s.setCpl v).nextEip = s.nextEip := rfl
@[simp] theorem State.setCpl_flags (s : State) (v : BitVec 2) : (s.setCpl v).flags = s.flags := rfl
@[simp] theorem State.setCpl_cpl (s : State) (v : BitVec 2) : (s.setCpl v).cpl = v := rfl
@[simp] theorem State.setCpl_seg (s : State) (v : BitVec 2) : (s.setCpl v).seg = s.seg := rfl
@[simp] theorem State.setCpl_sys (s : State) (v : BitVec 2) : (s.setCpl v).sys = s.sys := rfl
@[simp] theorem State.setCpl_cr (s : State) (v : BitVec 2) : (s.setCpl v).cr = s.cr := rfl
@[simp] theorem State.setCpl_dr (s : State) (v : BitVec 2) : (s.setCpl v).dr = s.dr := rfl
@[simp] theorem State.setCpl_msr (s : State) (v : BitVec 2) : (s.setCpl v).msr = s.msr := rfl
@[simp] theorem State.setCpl_fpu (s : State) (v : BitVec 2) : (s.setCpl v).fpu = s.fpu := rfl
@[simp] theorem State.setCpl_mem (s : State) (v : BitVec 2) : (s.setCpl v).mem = s.mem := rfl
@[simp] theorem State.setCpl_cache (s : State) (v : BitVec 2) : (s.setCpl v).cache = s.cache := rfl
@[simp] theorem State.setCpl_other (s : State) (v : BitVec 2) : (s.setCpl v).other = s.other := rfl
@[simp] theorem State.setCpl_smm (s : State) (v : BitVec 2) : (s.setCpl v).smm = s.smm := rfl
@[simp] theorem State.setCpl_intr (s : State) (v : BitVec 2) : (s.setCpl v).intr = s.intr := rfl
@[simp] theorem State.setCpl_scr (s : State) (v : BitVec 2) : (s.setCpl v).scr = s.scr := rfl
@[simp] theorem State.setCpl_clock (s : State) (v : BitVec 2) : (s.setCpl v).clock = s.clock := rfl
@[simp] theorem State.setCpl_pins (s : State) (v : BitVec 2) : (s.setCpl v).pins = s.pins := rfl
@[simp] theorem State.setCpl_test (s : State) (v : BitVec 2) : (s.setCpl v).test = s.test := rfl
@[simp] theorem State.setCpl_bus (s : State) (v : BitVec 2) : (s.setCpl v).bus = s.bus := rfl
@[simp] theorem State.setCpl_biu (s : State) (v : BitVec 2) : (s.setCpl v).biu = s.biu := rfl
@[simp] theorem State.setCpl_draws (s : State) (v : BitVec 2) : (s.setCpl v).draws = s.draws := rfl
@[simp] theorem State.setCpl_plat (s : State) (v : BitVec 2) : (s.setCpl v).plat = s.plat := rfl
@[simp] theorem State.setSeg_gpr (s : State) (v : SegFile) : (s.setSeg v).gpr = s.gpr := rfl
@[simp] theorem State.setSeg_eip (s : State) (v : SegFile) : (s.setSeg v).eip = s.eip := rfl
@[simp] theorem State.setSeg_nextEip (s : State) (v : SegFile) : (s.setSeg v).nextEip = s.nextEip := rfl
@[simp] theorem State.setSeg_flags (s : State) (v : SegFile) : (s.setSeg v).flags = s.flags := rfl
@[simp] theorem State.setSeg_cpl (s : State) (v : SegFile) : (s.setSeg v).cpl = s.cpl := rfl
@[simp] theorem State.setSeg_seg (s : State) (v : SegFile) : (s.setSeg v).seg = v := rfl
@[simp] theorem State.setSeg_sys (s : State) (v : SegFile) : (s.setSeg v).sys = s.sys := rfl
@[simp] theorem State.setSeg_cr (s : State) (v : SegFile) : (s.setSeg v).cr = s.cr := rfl
@[simp] theorem State.setSeg_dr (s : State) (v : SegFile) : (s.setSeg v).dr = s.dr := rfl
@[simp] theorem State.setSeg_msr (s : State) (v : SegFile) : (s.setSeg v).msr = s.msr := rfl
@[simp] theorem State.setSeg_fpu (s : State) (v : SegFile) : (s.setSeg v).fpu = s.fpu := rfl
@[simp] theorem State.setSeg_mem (s : State) (v : SegFile) : (s.setSeg v).mem = s.mem := rfl
@[simp] theorem State.setSeg_cache (s : State) (v : SegFile) : (s.setSeg v).cache = s.cache := rfl
@[simp] theorem State.setSeg_other (s : State) (v : SegFile) : (s.setSeg v).other = s.other := rfl
@[simp] theorem State.setSeg_smm (s : State) (v : SegFile) : (s.setSeg v).smm = s.smm := rfl
@[simp] theorem State.setSeg_intr (s : State) (v : SegFile) : (s.setSeg v).intr = s.intr := rfl
@[simp] theorem State.setSeg_scr (s : State) (v : SegFile) : (s.setSeg v).scr = s.scr := rfl
@[simp] theorem State.setSeg_clock (s : State) (v : SegFile) : (s.setSeg v).clock = s.clock := rfl
@[simp] theorem State.setSeg_pins (s : State) (v : SegFile) : (s.setSeg v).pins = s.pins := rfl
@[simp] theorem State.setSeg_test (s : State) (v : SegFile) : (s.setSeg v).test = s.test := rfl
@[simp] theorem State.setSeg_bus (s : State) (v : SegFile) : (s.setSeg v).bus = s.bus := rfl
@[simp] theorem State.setSeg_biu (s : State) (v : SegFile) : (s.setSeg v).biu = s.biu := rfl
@[simp] theorem State.setSeg_draws (s : State) (v : SegFile) : (s.setSeg v).draws = s.draws := rfl
@[simp] theorem State.setSeg_plat (s : State) (v : SegFile) : (s.setSeg v).plat = s.plat := rfl
@[simp] theorem State.setSys_gpr (s : State) (v : SysRegs) : (s.setSys v).gpr = s.gpr := rfl
@[simp] theorem State.setSys_eip (s : State) (v : SysRegs) : (s.setSys v).eip = s.eip := rfl
@[simp] theorem State.setSys_nextEip (s : State) (v : SysRegs) : (s.setSys v).nextEip = s.nextEip := rfl
@[simp] theorem State.setSys_flags (s : State) (v : SysRegs) : (s.setSys v).flags = s.flags := rfl
@[simp] theorem State.setSys_cpl (s : State) (v : SysRegs) : (s.setSys v).cpl = s.cpl := rfl
@[simp] theorem State.setSys_seg (s : State) (v : SysRegs) : (s.setSys v).seg = s.seg := rfl
@[simp] theorem State.setSys_sys (s : State) (v : SysRegs) : (s.setSys v).sys = v := rfl
@[simp] theorem State.setSys_cr (s : State) (v : SysRegs) : (s.setSys v).cr = s.cr := rfl
@[simp] theorem State.setSys_dr (s : State) (v : SysRegs) : (s.setSys v).dr = s.dr := rfl
@[simp] theorem State.setSys_msr (s : State) (v : SysRegs) : (s.setSys v).msr = s.msr := rfl
@[simp] theorem State.setSys_fpu (s : State) (v : SysRegs) : (s.setSys v).fpu = s.fpu := rfl
@[simp] theorem State.setSys_mem (s : State) (v : SysRegs) : (s.setSys v).mem = s.mem := rfl
@[simp] theorem State.setSys_cache (s : State) (v : SysRegs) : (s.setSys v).cache = s.cache := rfl
@[simp] theorem State.setSys_other (s : State) (v : SysRegs) : (s.setSys v).other = s.other := rfl
@[simp] theorem State.setSys_smm (s : State) (v : SysRegs) : (s.setSys v).smm = s.smm := rfl
@[simp] theorem State.setSys_intr (s : State) (v : SysRegs) : (s.setSys v).intr = s.intr := rfl
@[simp] theorem State.setSys_scr (s : State) (v : SysRegs) : (s.setSys v).scr = s.scr := rfl
@[simp] theorem State.setSys_clock (s : State) (v : SysRegs) : (s.setSys v).clock = s.clock := rfl
@[simp] theorem State.setSys_pins (s : State) (v : SysRegs) : (s.setSys v).pins = s.pins := rfl
@[simp] theorem State.setSys_test (s : State) (v : SysRegs) : (s.setSys v).test = s.test := rfl
@[simp] theorem State.setSys_bus (s : State) (v : SysRegs) : (s.setSys v).bus = s.bus := rfl
@[simp] theorem State.setSys_biu (s : State) (v : SysRegs) : (s.setSys v).biu = s.biu := rfl
@[simp] theorem State.setSys_draws (s : State) (v : SysRegs) : (s.setSys v).draws = s.draws := rfl
@[simp] theorem State.setSys_plat (s : State) (v : SysRegs) : (s.setSys v).plat = s.plat := rfl
@[simp] theorem State.setCr_gpr (s : State) (v : CtrlRegs) : (s.setCr v).gpr = s.gpr := rfl
@[simp] theorem State.setCr_eip (s : State) (v : CtrlRegs) : (s.setCr v).eip = s.eip := rfl
@[simp] theorem State.setCr_nextEip (s : State) (v : CtrlRegs) : (s.setCr v).nextEip = s.nextEip := rfl
@[simp] theorem State.setCr_flags (s : State) (v : CtrlRegs) : (s.setCr v).flags = s.flags := rfl
@[simp] theorem State.setCr_cpl (s : State) (v : CtrlRegs) : (s.setCr v).cpl = s.cpl := rfl
@[simp] theorem State.setCr_seg (s : State) (v : CtrlRegs) : (s.setCr v).seg = s.seg := rfl
@[simp] theorem State.setCr_sys (s : State) (v : CtrlRegs) : (s.setCr v).sys = s.sys := rfl
@[simp] theorem State.setCr_cr (s : State) (v : CtrlRegs) : (s.setCr v).cr = v := rfl
@[simp] theorem State.setCr_dr (s : State) (v : CtrlRegs) : (s.setCr v).dr = s.dr := rfl
@[simp] theorem State.setCr_msr (s : State) (v : CtrlRegs) : (s.setCr v).msr = s.msr := rfl
@[simp] theorem State.setCr_fpu (s : State) (v : CtrlRegs) : (s.setCr v).fpu = s.fpu := rfl
@[simp] theorem State.setCr_mem (s : State) (v : CtrlRegs) : (s.setCr v).mem = s.mem := rfl
@[simp] theorem State.setCr_cache (s : State) (v : CtrlRegs) : (s.setCr v).cache = s.cache := rfl
@[simp] theorem State.setCr_other (s : State) (v : CtrlRegs) : (s.setCr v).other = s.other := rfl
@[simp] theorem State.setCr_smm (s : State) (v : CtrlRegs) : (s.setCr v).smm = s.smm := rfl
@[simp] theorem State.setCr_intr (s : State) (v : CtrlRegs) : (s.setCr v).intr = s.intr := rfl
@[simp] theorem State.setCr_scr (s : State) (v : CtrlRegs) : (s.setCr v).scr = s.scr := rfl
@[simp] theorem State.setCr_clock (s : State) (v : CtrlRegs) : (s.setCr v).clock = s.clock := rfl
@[simp] theorem State.setCr_pins (s : State) (v : CtrlRegs) : (s.setCr v).pins = s.pins := rfl
@[simp] theorem State.setCr_test (s : State) (v : CtrlRegs) : (s.setCr v).test = s.test := rfl
@[simp] theorem State.setCr_bus (s : State) (v : CtrlRegs) : (s.setCr v).bus = s.bus := rfl
@[simp] theorem State.setCr_biu (s : State) (v : CtrlRegs) : (s.setCr v).biu = s.biu := rfl
@[simp] theorem State.setCr_draws (s : State) (v : CtrlRegs) : (s.setCr v).draws = s.draws := rfl
@[simp] theorem State.setCr_plat (s : State) (v : CtrlRegs) : (s.setCr v).plat = s.plat := rfl
@[simp] theorem State.setDr_gpr (s : State) (v : DebugRegs) : (s.setDr v).gpr = s.gpr := rfl
@[simp] theorem State.setDr_eip (s : State) (v : DebugRegs) : (s.setDr v).eip = s.eip := rfl
@[simp] theorem State.setDr_nextEip (s : State) (v : DebugRegs) : (s.setDr v).nextEip = s.nextEip := rfl
@[simp] theorem State.setDr_flags (s : State) (v : DebugRegs) : (s.setDr v).flags = s.flags := rfl
@[simp] theorem State.setDr_cpl (s : State) (v : DebugRegs) : (s.setDr v).cpl = s.cpl := rfl
@[simp] theorem State.setDr_seg (s : State) (v : DebugRegs) : (s.setDr v).seg = s.seg := rfl
@[simp] theorem State.setDr_sys (s : State) (v : DebugRegs) : (s.setDr v).sys = s.sys := rfl
@[simp] theorem State.setDr_cr (s : State) (v : DebugRegs) : (s.setDr v).cr = s.cr := rfl
@[simp] theorem State.setDr_dr (s : State) (v : DebugRegs) : (s.setDr v).dr = v := rfl
@[simp] theorem State.setDr_msr (s : State) (v : DebugRegs) : (s.setDr v).msr = s.msr := rfl
@[simp] theorem State.setDr_fpu (s : State) (v : DebugRegs) : (s.setDr v).fpu = s.fpu := rfl
@[simp] theorem State.setDr_mem (s : State) (v : DebugRegs) : (s.setDr v).mem = s.mem := rfl
@[simp] theorem State.setDr_cache (s : State) (v : DebugRegs) : (s.setDr v).cache = s.cache := rfl
@[simp] theorem State.setDr_other (s : State) (v : DebugRegs) : (s.setDr v).other = s.other := rfl
@[simp] theorem State.setDr_smm (s : State) (v : DebugRegs) : (s.setDr v).smm = s.smm := rfl
@[simp] theorem State.setDr_intr (s : State) (v : DebugRegs) : (s.setDr v).intr = s.intr := rfl
@[simp] theorem State.setDr_scr (s : State) (v : DebugRegs) : (s.setDr v).scr = s.scr := rfl
@[simp] theorem State.setDr_clock (s : State) (v : DebugRegs) : (s.setDr v).clock = s.clock := rfl
@[simp] theorem State.setDr_pins (s : State) (v : DebugRegs) : (s.setDr v).pins = s.pins := rfl
@[simp] theorem State.setDr_test (s : State) (v : DebugRegs) : (s.setDr v).test = s.test := rfl
@[simp] theorem State.setDr_bus (s : State) (v : DebugRegs) : (s.setDr v).bus = s.bus := rfl
@[simp] theorem State.setDr_biu (s : State) (v : DebugRegs) : (s.setDr v).biu = s.biu := rfl
@[simp] theorem State.setDr_draws (s : State) (v : DebugRegs) : (s.setDr v).draws = s.draws := rfl
@[simp] theorem State.setDr_plat (s : State) (v : DebugRegs) : (s.setDr v).plat = s.plat := rfl
@[simp] theorem State.setMsr_gpr (s : State) (v : Msrs) : (s.setMsr v).gpr = s.gpr := rfl
@[simp] theorem State.setMsr_eip (s : State) (v : Msrs) : (s.setMsr v).eip = s.eip := rfl
@[simp] theorem State.setMsr_nextEip (s : State) (v : Msrs) : (s.setMsr v).nextEip = s.nextEip := rfl
@[simp] theorem State.setMsr_flags (s : State) (v : Msrs) : (s.setMsr v).flags = s.flags := rfl
@[simp] theorem State.setMsr_cpl (s : State) (v : Msrs) : (s.setMsr v).cpl = s.cpl := rfl
@[simp] theorem State.setMsr_seg (s : State) (v : Msrs) : (s.setMsr v).seg = s.seg := rfl
@[simp] theorem State.setMsr_sys (s : State) (v : Msrs) : (s.setMsr v).sys = s.sys := rfl
@[simp] theorem State.setMsr_cr (s : State) (v : Msrs) : (s.setMsr v).cr = s.cr := rfl
@[simp] theorem State.setMsr_dr (s : State) (v : Msrs) : (s.setMsr v).dr = s.dr := rfl
@[simp] theorem State.setMsr_msr (s : State) (v : Msrs) : (s.setMsr v).msr = v := rfl
@[simp] theorem State.setMsr_fpu (s : State) (v : Msrs) : (s.setMsr v).fpu = s.fpu := rfl
@[simp] theorem State.setMsr_mem (s : State) (v : Msrs) : (s.setMsr v).mem = s.mem := rfl
@[simp] theorem State.setMsr_cache (s : State) (v : Msrs) : (s.setMsr v).cache = s.cache := rfl
@[simp] theorem State.setMsr_other (s : State) (v : Msrs) : (s.setMsr v).other = s.other := rfl
@[simp] theorem State.setMsr_smm (s : State) (v : Msrs) : (s.setMsr v).smm = s.smm := rfl
@[simp] theorem State.setMsr_intr (s : State) (v : Msrs) : (s.setMsr v).intr = s.intr := rfl
@[simp] theorem State.setMsr_scr (s : State) (v : Msrs) : (s.setMsr v).scr = s.scr := rfl
@[simp] theorem State.setMsr_clock (s : State) (v : Msrs) : (s.setMsr v).clock = s.clock := rfl
@[simp] theorem State.setMsr_pins (s : State) (v : Msrs) : (s.setMsr v).pins = s.pins := rfl
@[simp] theorem State.setMsr_test (s : State) (v : Msrs) : (s.setMsr v).test = s.test := rfl
@[simp] theorem State.setMsr_bus (s : State) (v : Msrs) : (s.setMsr v).bus = s.bus := rfl
@[simp] theorem State.setMsr_biu (s : State) (v : Msrs) : (s.setMsr v).biu = s.biu := rfl
@[simp] theorem State.setMsr_draws (s : State) (v : Msrs) : (s.setMsr v).draws = s.draws := rfl
@[simp] theorem State.setMsr_plat (s : State) (v : Msrs) : (s.setMsr v).plat = s.plat := rfl
@[simp] theorem State.setFpu_gpr (s : State) (v : Fpu) : (s.setFpu v).gpr = s.gpr := rfl
@[simp] theorem State.setFpu_eip (s : State) (v : Fpu) : (s.setFpu v).eip = s.eip := rfl
@[simp] theorem State.setFpu_nextEip (s : State) (v : Fpu) : (s.setFpu v).nextEip = s.nextEip := rfl
@[simp] theorem State.setFpu_flags (s : State) (v : Fpu) : (s.setFpu v).flags = s.flags := rfl
@[simp] theorem State.setFpu_cpl (s : State) (v : Fpu) : (s.setFpu v).cpl = s.cpl := rfl
@[simp] theorem State.setFpu_seg (s : State) (v : Fpu) : (s.setFpu v).seg = s.seg := rfl
@[simp] theorem State.setFpu_sys (s : State) (v : Fpu) : (s.setFpu v).sys = s.sys := rfl
@[simp] theorem State.setFpu_cr (s : State) (v : Fpu) : (s.setFpu v).cr = s.cr := rfl
@[simp] theorem State.setFpu_dr (s : State) (v : Fpu) : (s.setFpu v).dr = s.dr := rfl
@[simp] theorem State.setFpu_msr (s : State) (v : Fpu) : (s.setFpu v).msr = s.msr := rfl
@[simp] theorem State.setFpu_fpu (s : State) (v : Fpu) : (s.setFpu v).fpu = v := rfl
@[simp] theorem State.setFpu_mem (s : State) (v : Fpu) : (s.setFpu v).mem = s.mem := rfl
@[simp] theorem State.setFpu_cache (s : State) (v : Fpu) : (s.setFpu v).cache = s.cache := rfl
@[simp] theorem State.setFpu_other (s : State) (v : Fpu) : (s.setFpu v).other = s.other := rfl
@[simp] theorem State.setFpu_smm (s : State) (v : Fpu) : (s.setFpu v).smm = s.smm := rfl
@[simp] theorem State.setFpu_intr (s : State) (v : Fpu) : (s.setFpu v).intr = s.intr := rfl
@[simp] theorem State.setFpu_scr (s : State) (v : Fpu) : (s.setFpu v).scr = s.scr := rfl
@[simp] theorem State.setFpu_clock (s : State) (v : Fpu) : (s.setFpu v).clock = s.clock := rfl
@[simp] theorem State.setFpu_pins (s : State) (v : Fpu) : (s.setFpu v).pins = s.pins := rfl
@[simp] theorem State.setFpu_test (s : State) (v : Fpu) : (s.setFpu v).test = s.test := rfl
@[simp] theorem State.setFpu_bus (s : State) (v : Fpu) : (s.setFpu v).bus = s.bus := rfl
@[simp] theorem State.setFpu_biu (s : State) (v : Fpu) : (s.setFpu v).biu = s.biu := rfl
@[simp] theorem State.setFpu_draws (s : State) (v : Fpu) : (s.setFpu v).draws = s.draws := rfl
@[simp] theorem State.setFpu_plat (s : State) (v : Fpu) : (s.setFpu v).plat = s.plat := rfl
@[simp] theorem State.setMem_gpr (s : State) (v : Memory) : (s.setMem v).gpr = s.gpr := rfl
@[simp] theorem State.setMem_eip (s : State) (v : Memory) : (s.setMem v).eip = s.eip := rfl
@[simp] theorem State.setMem_nextEip (s : State) (v : Memory) : (s.setMem v).nextEip = s.nextEip := rfl
@[simp] theorem State.setMem_flags (s : State) (v : Memory) : (s.setMem v).flags = s.flags := rfl
@[simp] theorem State.setMem_cpl (s : State) (v : Memory) : (s.setMem v).cpl = s.cpl := rfl
@[simp] theorem State.setMem_seg (s : State) (v : Memory) : (s.setMem v).seg = s.seg := rfl
@[simp] theorem State.setMem_sys (s : State) (v : Memory) : (s.setMem v).sys = s.sys := rfl
@[simp] theorem State.setMem_cr (s : State) (v : Memory) : (s.setMem v).cr = s.cr := rfl
@[simp] theorem State.setMem_dr (s : State) (v : Memory) : (s.setMem v).dr = s.dr := rfl
@[simp] theorem State.setMem_msr (s : State) (v : Memory) : (s.setMem v).msr = s.msr := rfl
@[simp] theorem State.setMem_fpu (s : State) (v : Memory) : (s.setMem v).fpu = s.fpu := rfl
@[simp] theorem State.setMem_mem (s : State) (v : Memory) : (s.setMem v).mem = v := rfl
@[simp] theorem State.setMem_cache (s : State) (v : Memory) : (s.setMem v).cache = s.cache := rfl
@[simp] theorem State.setMem_other (s : State) (v : Memory) : (s.setMem v).other = s.other := rfl
@[simp] theorem State.setMem_smm (s : State) (v : Memory) : (s.setMem v).smm = s.smm := rfl
@[simp] theorem State.setMem_intr (s : State) (v : Memory) : (s.setMem v).intr = s.intr := rfl
@[simp] theorem State.setMem_scr (s : State) (v : Memory) : (s.setMem v).scr = s.scr := rfl
@[simp] theorem State.setMem_clock (s : State) (v : Memory) : (s.setMem v).clock = s.clock := rfl
@[simp] theorem State.setMem_pins (s : State) (v : Memory) : (s.setMem v).pins = s.pins := rfl
@[simp] theorem State.setMem_test (s : State) (v : Memory) : (s.setMem v).test = s.test := rfl
@[simp] theorem State.setMem_bus (s : State) (v : Memory) : (s.setMem v).bus = s.bus := rfl
@[simp] theorem State.setMem_biu (s : State) (v : Memory) : (s.setMem v).biu = s.biu := rfl
@[simp] theorem State.setMem_draws (s : State) (v : Memory) : (s.setMem v).draws = s.draws := rfl
@[simp] theorem State.setMem_plat (s : State) (v : Memory) : (s.setMem v).plat = s.plat := rfl
@[simp] theorem State.setCache_gpr (s : State) (v : Caches) : (s.setCache v).gpr = s.gpr := rfl
@[simp] theorem State.setCache_eip (s : State) (v : Caches) : (s.setCache v).eip = s.eip := rfl
@[simp] theorem State.setCache_nextEip (s : State) (v : Caches) : (s.setCache v).nextEip = s.nextEip := rfl
@[simp] theorem State.setCache_flags (s : State) (v : Caches) : (s.setCache v).flags = s.flags := rfl
@[simp] theorem State.setCache_cpl (s : State) (v : Caches) : (s.setCache v).cpl = s.cpl := rfl
@[simp] theorem State.setCache_seg (s : State) (v : Caches) : (s.setCache v).seg = s.seg := rfl
@[simp] theorem State.setCache_sys (s : State) (v : Caches) : (s.setCache v).sys = s.sys := rfl
@[simp] theorem State.setCache_cr (s : State) (v : Caches) : (s.setCache v).cr = s.cr := rfl
@[simp] theorem State.setCache_dr (s : State) (v : Caches) : (s.setCache v).dr = s.dr := rfl
@[simp] theorem State.setCache_msr (s : State) (v : Caches) : (s.setCache v).msr = s.msr := rfl
@[simp] theorem State.setCache_fpu (s : State) (v : Caches) : (s.setCache v).fpu = s.fpu := rfl
@[simp] theorem State.setCache_mem (s : State) (v : Caches) : (s.setCache v).mem = s.mem := rfl
@[simp] theorem State.setCache_cache (s : State) (v : Caches) : (s.setCache v).cache = v := rfl
@[simp] theorem State.setCache_other (s : State) (v : Caches) : (s.setCache v).other = s.other := rfl
@[simp] theorem State.setCache_smm (s : State) (v : Caches) : (s.setCache v).smm = s.smm := rfl
@[simp] theorem State.setCache_intr (s : State) (v : Caches) : (s.setCache v).intr = s.intr := rfl
@[simp] theorem State.setCache_scr (s : State) (v : Caches) : (s.setCache v).scr = s.scr := rfl
@[simp] theorem State.setCache_clock (s : State) (v : Caches) : (s.setCache v).clock = s.clock := rfl
@[simp] theorem State.setCache_pins (s : State) (v : Caches) : (s.setCache v).pins = s.pins := rfl
@[simp] theorem State.setCache_test (s : State) (v : Caches) : (s.setCache v).test = s.test := rfl
@[simp] theorem State.setCache_bus (s : State) (v : Caches) : (s.setCache v).bus = s.bus := rfl
@[simp] theorem State.setCache_biu (s : State) (v : Caches) : (s.setCache v).biu = s.biu := rfl
@[simp] theorem State.setCache_draws (s : State) (v : Caches) : (s.setCache v).draws = s.draws := rfl
@[simp] theorem State.setCache_plat (s : State) (v : Caches) : (s.setCache v).plat = s.plat := rfl
@[simp] theorem State.setOther_gpr (s : State) (v : Memory) : (s.setOther v).gpr = s.gpr := rfl
@[simp] theorem State.setOther_eip (s : State) (v : Memory) : (s.setOther v).eip = s.eip := rfl
@[simp] theorem State.setOther_nextEip (s : State) (v : Memory) : (s.setOther v).nextEip = s.nextEip := rfl
@[simp] theorem State.setOther_flags (s : State) (v : Memory) : (s.setOther v).flags = s.flags := rfl
@[simp] theorem State.setOther_cpl (s : State) (v : Memory) : (s.setOther v).cpl = s.cpl := rfl
@[simp] theorem State.setOther_seg (s : State) (v : Memory) : (s.setOther v).seg = s.seg := rfl
@[simp] theorem State.setOther_sys (s : State) (v : Memory) : (s.setOther v).sys = s.sys := rfl
@[simp] theorem State.setOther_cr (s : State) (v : Memory) : (s.setOther v).cr = s.cr := rfl
@[simp] theorem State.setOther_dr (s : State) (v : Memory) : (s.setOther v).dr = s.dr := rfl
@[simp] theorem State.setOther_msr (s : State) (v : Memory) : (s.setOther v).msr = s.msr := rfl
@[simp] theorem State.setOther_fpu (s : State) (v : Memory) : (s.setOther v).fpu = s.fpu := rfl
@[simp] theorem State.setOther_mem (s : State) (v : Memory) : (s.setOther v).mem = s.mem := rfl
@[simp] theorem State.setOther_cache (s : State) (v : Memory) : (s.setOther v).cache = s.cache := rfl
@[simp] theorem State.setOther_other (s : State) (v : Memory) : (s.setOther v).other = v := rfl
@[simp] theorem State.setOther_smm (s : State) (v : Memory) : (s.setOther v).smm = s.smm := rfl
@[simp] theorem State.setOther_intr (s : State) (v : Memory) : (s.setOther v).intr = s.intr := rfl
@[simp] theorem State.setOther_scr (s : State) (v : Memory) : (s.setOther v).scr = s.scr := rfl
@[simp] theorem State.setOther_clock (s : State) (v : Memory) : (s.setOther v).clock = s.clock := rfl
@[simp] theorem State.setOther_pins (s : State) (v : Memory) : (s.setOther v).pins = s.pins := rfl
@[simp] theorem State.setOther_test (s : State) (v : Memory) : (s.setOther v).test = s.test := rfl
@[simp] theorem State.setOther_bus (s : State) (v : Memory) : (s.setOther v).bus = s.bus := rfl
@[simp] theorem State.setOther_biu (s : State) (v : Memory) : (s.setOther v).biu = s.biu := rfl
@[simp] theorem State.setOther_draws (s : State) (v : Memory) : (s.setOther v).draws = s.draws := rfl
@[simp] theorem State.setOther_plat (s : State) (v : Memory) : (s.setOther v).plat = s.plat := rfl
@[simp] theorem State.setSmm_gpr (s : State) (v : Smm) : (s.setSmm v).gpr = s.gpr := rfl
@[simp] theorem State.setSmm_eip (s : State) (v : Smm) : (s.setSmm v).eip = s.eip := rfl
@[simp] theorem State.setSmm_nextEip (s : State) (v : Smm) : (s.setSmm v).nextEip = s.nextEip := rfl
@[simp] theorem State.setSmm_flags (s : State) (v : Smm) : (s.setSmm v).flags = s.flags := rfl
@[simp] theorem State.setSmm_cpl (s : State) (v : Smm) : (s.setSmm v).cpl = s.cpl := rfl
@[simp] theorem State.setSmm_seg (s : State) (v : Smm) : (s.setSmm v).seg = s.seg := rfl
@[simp] theorem State.setSmm_sys (s : State) (v : Smm) : (s.setSmm v).sys = s.sys := rfl
@[simp] theorem State.setSmm_cr (s : State) (v : Smm) : (s.setSmm v).cr = s.cr := rfl
@[simp] theorem State.setSmm_dr (s : State) (v : Smm) : (s.setSmm v).dr = s.dr := rfl
@[simp] theorem State.setSmm_msr (s : State) (v : Smm) : (s.setSmm v).msr = s.msr := rfl
@[simp] theorem State.setSmm_fpu (s : State) (v : Smm) : (s.setSmm v).fpu = s.fpu := rfl
@[simp] theorem State.setSmm_mem (s : State) (v : Smm) : (s.setSmm v).mem = s.mem := rfl
@[simp] theorem State.setSmm_cache (s : State) (v : Smm) : (s.setSmm v).cache = s.cache := rfl
@[simp] theorem State.setSmm_other (s : State) (v : Smm) : (s.setSmm v).other = s.other := rfl
@[simp] theorem State.setSmm_smm (s : State) (v : Smm) : (s.setSmm v).smm = v := rfl
@[simp] theorem State.setSmm_intr (s : State) (v : Smm) : (s.setSmm v).intr = s.intr := rfl
@[simp] theorem State.setSmm_scr (s : State) (v : Smm) : (s.setSmm v).scr = s.scr := rfl
@[simp] theorem State.setSmm_clock (s : State) (v : Smm) : (s.setSmm v).clock = s.clock := rfl
@[simp] theorem State.setSmm_pins (s : State) (v : Smm) : (s.setSmm v).pins = s.pins := rfl
@[simp] theorem State.setSmm_test (s : State) (v : Smm) : (s.setSmm v).test = s.test := rfl
@[simp] theorem State.setSmm_bus (s : State) (v : Smm) : (s.setSmm v).bus = s.bus := rfl
@[simp] theorem State.setSmm_biu (s : State) (v : Smm) : (s.setSmm v).biu = s.biu := rfl
@[simp] theorem State.setSmm_draws (s : State) (v : Smm) : (s.setSmm v).draws = s.draws := rfl
@[simp] theorem State.setSmm_plat (s : State) (v : Smm) : (s.setSmm v).plat = s.plat := rfl
@[simp] theorem State.setIntr_gpr (s : State) (v : Intr) : (s.setIntr v).gpr = s.gpr := rfl
@[simp] theorem State.setIntr_eip (s : State) (v : Intr) : (s.setIntr v).eip = s.eip := rfl
@[simp] theorem State.setIntr_nextEip (s : State) (v : Intr) : (s.setIntr v).nextEip = s.nextEip := rfl
@[simp] theorem State.setIntr_flags (s : State) (v : Intr) : (s.setIntr v).flags = s.flags := rfl
@[simp] theorem State.setIntr_cpl (s : State) (v : Intr) : (s.setIntr v).cpl = s.cpl := rfl
@[simp] theorem State.setIntr_seg (s : State) (v : Intr) : (s.setIntr v).seg = s.seg := rfl
@[simp] theorem State.setIntr_sys (s : State) (v : Intr) : (s.setIntr v).sys = s.sys := rfl
@[simp] theorem State.setIntr_cr (s : State) (v : Intr) : (s.setIntr v).cr = s.cr := rfl
@[simp] theorem State.setIntr_dr (s : State) (v : Intr) : (s.setIntr v).dr = s.dr := rfl
@[simp] theorem State.setIntr_msr (s : State) (v : Intr) : (s.setIntr v).msr = s.msr := rfl
@[simp] theorem State.setIntr_fpu (s : State) (v : Intr) : (s.setIntr v).fpu = s.fpu := rfl
@[simp] theorem State.setIntr_mem (s : State) (v : Intr) : (s.setIntr v).mem = s.mem := rfl
@[simp] theorem State.setIntr_cache (s : State) (v : Intr) : (s.setIntr v).cache = s.cache := rfl
@[simp] theorem State.setIntr_other (s : State) (v : Intr) : (s.setIntr v).other = s.other := rfl
@[simp] theorem State.setIntr_smm (s : State) (v : Intr) : (s.setIntr v).smm = s.smm := rfl
@[simp] theorem State.setIntr_intr (s : State) (v : Intr) : (s.setIntr v).intr = v := rfl
@[simp] theorem State.setIntr_scr (s : State) (v : Intr) : (s.setIntr v).scr = s.scr := rfl
@[simp] theorem State.setIntr_clock (s : State) (v : Intr) : (s.setIntr v).clock = s.clock := rfl
@[simp] theorem State.setIntr_pins (s : State) (v : Intr) : (s.setIntr v).pins = s.pins := rfl
@[simp] theorem State.setIntr_test (s : State) (v : Intr) : (s.setIntr v).test = s.test := rfl
@[simp] theorem State.setIntr_bus (s : State) (v : Intr) : (s.setIntr v).bus = s.bus := rfl
@[simp] theorem State.setIntr_biu (s : State) (v : Intr) : (s.setIntr v).biu = s.biu := rfl
@[simp] theorem State.setIntr_draws (s : State) (v : Intr) : (s.setIntr v).draws = s.draws := rfl
@[simp] theorem State.setIntr_plat (s : State) (v : Intr) : (s.setIntr v).plat = s.plat := rfl
@[simp] theorem State.setScr_gpr (s : State) (v : Scratch) : (s.setScr v).gpr = s.gpr := rfl
@[simp] theorem State.setScr_eip (s : State) (v : Scratch) : (s.setScr v).eip = s.eip := rfl
@[simp] theorem State.setScr_nextEip (s : State) (v : Scratch) : (s.setScr v).nextEip = s.nextEip := rfl
@[simp] theorem State.setScr_flags (s : State) (v : Scratch) : (s.setScr v).flags = s.flags := rfl
@[simp] theorem State.setScr_cpl (s : State) (v : Scratch) : (s.setScr v).cpl = s.cpl := rfl
@[simp] theorem State.setScr_seg (s : State) (v : Scratch) : (s.setScr v).seg = s.seg := rfl
@[simp] theorem State.setScr_sys (s : State) (v : Scratch) : (s.setScr v).sys = s.sys := rfl
@[simp] theorem State.setScr_cr (s : State) (v : Scratch) : (s.setScr v).cr = s.cr := rfl
@[simp] theorem State.setScr_dr (s : State) (v : Scratch) : (s.setScr v).dr = s.dr := rfl
@[simp] theorem State.setScr_msr (s : State) (v : Scratch) : (s.setScr v).msr = s.msr := rfl
@[simp] theorem State.setScr_fpu (s : State) (v : Scratch) : (s.setScr v).fpu = s.fpu := rfl
@[simp] theorem State.setScr_mem (s : State) (v : Scratch) : (s.setScr v).mem = s.mem := rfl
@[simp] theorem State.setScr_cache (s : State) (v : Scratch) : (s.setScr v).cache = s.cache := rfl
@[simp] theorem State.setScr_other (s : State) (v : Scratch) : (s.setScr v).other = s.other := rfl
@[simp] theorem State.setScr_smm (s : State) (v : Scratch) : (s.setScr v).smm = s.smm := rfl
@[simp] theorem State.setScr_intr (s : State) (v : Scratch) : (s.setScr v).intr = s.intr := rfl
@[simp] theorem State.setScr_scr (s : State) (v : Scratch) : (s.setScr v).scr = v := rfl
@[simp] theorem State.setScr_clock (s : State) (v : Scratch) : (s.setScr v).clock = s.clock := rfl
@[simp] theorem State.setScr_pins (s : State) (v : Scratch) : (s.setScr v).pins = s.pins := rfl
@[simp] theorem State.setScr_test (s : State) (v : Scratch) : (s.setScr v).test = s.test := rfl
@[simp] theorem State.setScr_bus (s : State) (v : Scratch) : (s.setScr v).bus = s.bus := rfl
@[simp] theorem State.setScr_biu (s : State) (v : Scratch) : (s.setScr v).biu = s.biu := rfl
@[simp] theorem State.setScr_draws (s : State) (v : Scratch) : (s.setScr v).draws = s.draws := rfl
@[simp] theorem State.setScr_plat (s : State) (v : Scratch) : (s.setScr v).plat = s.plat := rfl
@[simp] theorem State.setClock_gpr (s : State) (v : Clock) : (s.setClock v).gpr = s.gpr := rfl
@[simp] theorem State.setClock_eip (s : State) (v : Clock) : (s.setClock v).eip = s.eip := rfl
@[simp] theorem State.setClock_nextEip (s : State) (v : Clock) : (s.setClock v).nextEip = s.nextEip := rfl
@[simp] theorem State.setClock_flags (s : State) (v : Clock) : (s.setClock v).flags = s.flags := rfl
@[simp] theorem State.setClock_cpl (s : State) (v : Clock) : (s.setClock v).cpl = s.cpl := rfl
@[simp] theorem State.setClock_seg (s : State) (v : Clock) : (s.setClock v).seg = s.seg := rfl
@[simp] theorem State.setClock_sys (s : State) (v : Clock) : (s.setClock v).sys = s.sys := rfl
@[simp] theorem State.setClock_cr (s : State) (v : Clock) : (s.setClock v).cr = s.cr := rfl
@[simp] theorem State.setClock_dr (s : State) (v : Clock) : (s.setClock v).dr = s.dr := rfl
@[simp] theorem State.setClock_msr (s : State) (v : Clock) : (s.setClock v).msr = s.msr := rfl
@[simp] theorem State.setClock_fpu (s : State) (v : Clock) : (s.setClock v).fpu = s.fpu := rfl
@[simp] theorem State.setClock_mem (s : State) (v : Clock) : (s.setClock v).mem = s.mem := rfl
@[simp] theorem State.setClock_cache (s : State) (v : Clock) : (s.setClock v).cache = s.cache := rfl
@[simp] theorem State.setClock_other (s : State) (v : Clock) : (s.setClock v).other = s.other := rfl
@[simp] theorem State.setClock_smm (s : State) (v : Clock) : (s.setClock v).smm = s.smm := rfl
@[simp] theorem State.setClock_intr (s : State) (v : Clock) : (s.setClock v).intr = s.intr := rfl
@[simp] theorem State.setClock_scr (s : State) (v : Clock) : (s.setClock v).scr = s.scr := rfl
@[simp] theorem State.setClock_clock (s : State) (v : Clock) : (s.setClock v).clock = v := rfl
@[simp] theorem State.setClock_pins (s : State) (v : Clock) : (s.setClock v).pins = s.pins := rfl
@[simp] theorem State.setClock_test (s : State) (v : Clock) : (s.setClock v).test = s.test := rfl
@[simp] theorem State.setClock_bus (s : State) (v : Clock) : (s.setClock v).bus = s.bus := rfl
@[simp] theorem State.setClock_biu (s : State) (v : Clock) : (s.setClock v).biu = s.biu := rfl
@[simp] theorem State.setClock_draws (s : State) (v : Clock) : (s.setClock v).draws = s.draws := rfl
@[simp] theorem State.setClock_plat (s : State) (v : Clock) : (s.setClock v).plat = s.plat := rfl
@[simp] theorem State.setPins_gpr (s : State) (v : Pins) : (s.setPins v).gpr = s.gpr := rfl
@[simp] theorem State.setPins_eip (s : State) (v : Pins) : (s.setPins v).eip = s.eip := rfl
@[simp] theorem State.setPins_nextEip (s : State) (v : Pins) : (s.setPins v).nextEip = s.nextEip := rfl
@[simp] theorem State.setPins_flags (s : State) (v : Pins) : (s.setPins v).flags = s.flags := rfl
@[simp] theorem State.setPins_cpl (s : State) (v : Pins) : (s.setPins v).cpl = s.cpl := rfl
@[simp] theorem State.setPins_seg (s : State) (v : Pins) : (s.setPins v).seg = s.seg := rfl
@[simp] theorem State.setPins_sys (s : State) (v : Pins) : (s.setPins v).sys = s.sys := rfl
@[simp] theorem State.setPins_cr (s : State) (v : Pins) : (s.setPins v).cr = s.cr := rfl
@[simp] theorem State.setPins_dr (s : State) (v : Pins) : (s.setPins v).dr = s.dr := rfl
@[simp] theorem State.setPins_msr (s : State) (v : Pins) : (s.setPins v).msr = s.msr := rfl
@[simp] theorem State.setPins_fpu (s : State) (v : Pins) : (s.setPins v).fpu = s.fpu := rfl
@[simp] theorem State.setPins_mem (s : State) (v : Pins) : (s.setPins v).mem = s.mem := rfl
@[simp] theorem State.setPins_cache (s : State) (v : Pins) : (s.setPins v).cache = s.cache := rfl
@[simp] theorem State.setPins_other (s : State) (v : Pins) : (s.setPins v).other = s.other := rfl
@[simp] theorem State.setPins_smm (s : State) (v : Pins) : (s.setPins v).smm = s.smm := rfl
@[simp] theorem State.setPins_intr (s : State) (v : Pins) : (s.setPins v).intr = s.intr := rfl
@[simp] theorem State.setPins_scr (s : State) (v : Pins) : (s.setPins v).scr = s.scr := rfl
@[simp] theorem State.setPins_clock (s : State) (v : Pins) : (s.setPins v).clock = s.clock := rfl
@[simp] theorem State.setPins_pins (s : State) (v : Pins) : (s.setPins v).pins = v := rfl
@[simp] theorem State.setPins_test (s : State) (v : Pins) : (s.setPins v).test = s.test := rfl
@[simp] theorem State.setPins_bus (s : State) (v : Pins) : (s.setPins v).bus = s.bus := rfl
@[simp] theorem State.setPins_biu (s : State) (v : Pins) : (s.setPins v).biu = s.biu := rfl
@[simp] theorem State.setPins_draws (s : State) (v : Pins) : (s.setPins v).draws = s.draws := rfl
@[simp] theorem State.setPins_plat (s : State) (v : Pins) : (s.setPins v).plat = s.plat := rfl
@[simp] theorem State.setTest_gpr (s : State) (v : TestState) : (s.setTest v).gpr = s.gpr := rfl
@[simp] theorem State.setTest_eip (s : State) (v : TestState) : (s.setTest v).eip = s.eip := rfl
@[simp] theorem State.setTest_nextEip (s : State) (v : TestState) : (s.setTest v).nextEip = s.nextEip := rfl
@[simp] theorem State.setTest_flags (s : State) (v : TestState) : (s.setTest v).flags = s.flags := rfl
@[simp] theorem State.setTest_cpl (s : State) (v : TestState) : (s.setTest v).cpl = s.cpl := rfl
@[simp] theorem State.setTest_seg (s : State) (v : TestState) : (s.setTest v).seg = s.seg := rfl
@[simp] theorem State.setTest_sys (s : State) (v : TestState) : (s.setTest v).sys = s.sys := rfl
@[simp] theorem State.setTest_cr (s : State) (v : TestState) : (s.setTest v).cr = s.cr := rfl
@[simp] theorem State.setTest_dr (s : State) (v : TestState) : (s.setTest v).dr = s.dr := rfl
@[simp] theorem State.setTest_msr (s : State) (v : TestState) : (s.setTest v).msr = s.msr := rfl
@[simp] theorem State.setTest_fpu (s : State) (v : TestState) : (s.setTest v).fpu = s.fpu := rfl
@[simp] theorem State.setTest_mem (s : State) (v : TestState) : (s.setTest v).mem = s.mem := rfl
@[simp] theorem State.setTest_cache (s : State) (v : TestState) : (s.setTest v).cache = s.cache := rfl
@[simp] theorem State.setTest_other (s : State) (v : TestState) : (s.setTest v).other = s.other := rfl
@[simp] theorem State.setTest_smm (s : State) (v : TestState) : (s.setTest v).smm = s.smm := rfl
@[simp] theorem State.setTest_intr (s : State) (v : TestState) : (s.setTest v).intr = s.intr := rfl
@[simp] theorem State.setTest_scr (s : State) (v : TestState) : (s.setTest v).scr = s.scr := rfl
@[simp] theorem State.setTest_clock (s : State) (v : TestState) : (s.setTest v).clock = s.clock := rfl
@[simp] theorem State.setTest_pins (s : State) (v : TestState) : (s.setTest v).pins = s.pins := rfl
@[simp] theorem State.setTest_test (s : State) (v : TestState) : (s.setTest v).test = v := rfl
@[simp] theorem State.setTest_bus (s : State) (v : TestState) : (s.setTest v).bus = s.bus := rfl
@[simp] theorem State.setTest_biu (s : State) (v : TestState) : (s.setTest v).biu = s.biu := rfl
@[simp] theorem State.setTest_draws (s : State) (v : TestState) : (s.setTest v).draws = s.draws := rfl
@[simp] theorem State.setTest_plat (s : State) (v : TestState) : (s.setTest v).plat = s.plat := rfl
@[simp] theorem State.setBus_gpr (s : State) (v : List BusEvent) : (s.setBus v).gpr = s.gpr := rfl
@[simp] theorem State.setBus_eip (s : State) (v : List BusEvent) : (s.setBus v).eip = s.eip := rfl
@[simp] theorem State.setBus_nextEip (s : State) (v : List BusEvent) : (s.setBus v).nextEip = s.nextEip := rfl
@[simp] theorem State.setBus_flags (s : State) (v : List BusEvent) : (s.setBus v).flags = s.flags := rfl
@[simp] theorem State.setBus_cpl (s : State) (v : List BusEvent) : (s.setBus v).cpl = s.cpl := rfl
@[simp] theorem State.setBus_seg (s : State) (v : List BusEvent) : (s.setBus v).seg = s.seg := rfl
@[simp] theorem State.setBus_sys (s : State) (v : List BusEvent) : (s.setBus v).sys = s.sys := rfl
@[simp] theorem State.setBus_cr (s : State) (v : List BusEvent) : (s.setBus v).cr = s.cr := rfl
@[simp] theorem State.setBus_dr (s : State) (v : List BusEvent) : (s.setBus v).dr = s.dr := rfl
@[simp] theorem State.setBus_msr (s : State) (v : List BusEvent) : (s.setBus v).msr = s.msr := rfl
@[simp] theorem State.setBus_fpu (s : State) (v : List BusEvent) : (s.setBus v).fpu = s.fpu := rfl
@[simp] theorem State.setBus_mem (s : State) (v : List BusEvent) : (s.setBus v).mem = s.mem := rfl
@[simp] theorem State.setBus_cache (s : State) (v : List BusEvent) : (s.setBus v).cache = s.cache := rfl
@[simp] theorem State.setBus_other (s : State) (v : List BusEvent) : (s.setBus v).other = s.other := rfl
@[simp] theorem State.setBus_smm (s : State) (v : List BusEvent) : (s.setBus v).smm = s.smm := rfl
@[simp] theorem State.setBus_intr (s : State) (v : List BusEvent) : (s.setBus v).intr = s.intr := rfl
@[simp] theorem State.setBus_scr (s : State) (v : List BusEvent) : (s.setBus v).scr = s.scr := rfl
@[simp] theorem State.setBus_clock (s : State) (v : List BusEvent) : (s.setBus v).clock = s.clock := rfl
@[simp] theorem State.setBus_pins (s : State) (v : List BusEvent) : (s.setBus v).pins = s.pins := rfl
@[simp] theorem State.setBus_test (s : State) (v : List BusEvent) : (s.setBus v).test = s.test := rfl
@[simp] theorem State.setBus_bus (s : State) (v : List BusEvent) : (s.setBus v).bus = v := rfl
@[simp] theorem State.setBus_biu (s : State) (v : List BusEvent) : (s.setBus v).biu = s.biu := rfl
@[simp] theorem State.setBus_draws (s : State) (v : List BusEvent) : (s.setBus v).draws = s.draws := rfl
@[simp] theorem State.setBus_plat (s : State) (v : List BusEvent) : (s.setBus v).plat = s.plat := rfl
@[simp] theorem State.setBiu_gpr (s : State) (v : BusUnit) : (s.setBiu v).gpr = s.gpr := rfl
@[simp] theorem State.setBiu_eip (s : State) (v : BusUnit) : (s.setBiu v).eip = s.eip := rfl
@[simp] theorem State.setBiu_nextEip (s : State) (v : BusUnit) : (s.setBiu v).nextEip = s.nextEip := rfl
@[simp] theorem State.setBiu_flags (s : State) (v : BusUnit) : (s.setBiu v).flags = s.flags := rfl
@[simp] theorem State.setBiu_cpl (s : State) (v : BusUnit) : (s.setBiu v).cpl = s.cpl := rfl
@[simp] theorem State.setBiu_seg (s : State) (v : BusUnit) : (s.setBiu v).seg = s.seg := rfl
@[simp] theorem State.setBiu_sys (s : State) (v : BusUnit) : (s.setBiu v).sys = s.sys := rfl
@[simp] theorem State.setBiu_cr (s : State) (v : BusUnit) : (s.setBiu v).cr = s.cr := rfl
@[simp] theorem State.setBiu_dr (s : State) (v : BusUnit) : (s.setBiu v).dr = s.dr := rfl
@[simp] theorem State.setBiu_msr (s : State) (v : BusUnit) : (s.setBiu v).msr = s.msr := rfl
@[simp] theorem State.setBiu_fpu (s : State) (v : BusUnit) : (s.setBiu v).fpu = s.fpu := rfl
@[simp] theorem State.setBiu_mem (s : State) (v : BusUnit) : (s.setBiu v).mem = s.mem := rfl
@[simp] theorem State.setBiu_cache (s : State) (v : BusUnit) : (s.setBiu v).cache = s.cache := rfl
@[simp] theorem State.setBiu_other (s : State) (v : BusUnit) : (s.setBiu v).other = s.other := rfl
@[simp] theorem State.setBiu_smm (s : State) (v : BusUnit) : (s.setBiu v).smm = s.smm := rfl
@[simp] theorem State.setBiu_intr (s : State) (v : BusUnit) : (s.setBiu v).intr = s.intr := rfl
@[simp] theorem State.setBiu_scr (s : State) (v : BusUnit) : (s.setBiu v).scr = s.scr := rfl
@[simp] theorem State.setBiu_clock (s : State) (v : BusUnit) : (s.setBiu v).clock = s.clock := rfl
@[simp] theorem State.setBiu_pins (s : State) (v : BusUnit) : (s.setBiu v).pins = s.pins := rfl
@[simp] theorem State.setBiu_test (s : State) (v : BusUnit) : (s.setBiu v).test = s.test := rfl
@[simp] theorem State.setBiu_bus (s : State) (v : BusUnit) : (s.setBiu v).bus = s.bus := rfl
@[simp] theorem State.setBiu_biu (s : State) (v : BusUnit) : (s.setBiu v).biu = v := rfl
@[simp] theorem State.setBiu_draws (s : State) (v : BusUnit) : (s.setBiu v).draws = s.draws := rfl
@[simp] theorem State.setBiu_plat (s : State) (v : BusUnit) : (s.setBiu v).plat = s.plat := rfl
@[simp] theorem State.setDraws_gpr (s : State) (v : Nat) : (s.setDraws v).gpr = s.gpr := rfl
@[simp] theorem State.setDraws_eip (s : State) (v : Nat) : (s.setDraws v).eip = s.eip := rfl
@[simp] theorem State.setDraws_nextEip (s : State) (v : Nat) : (s.setDraws v).nextEip = s.nextEip := rfl
@[simp] theorem State.setDraws_flags (s : State) (v : Nat) : (s.setDraws v).flags = s.flags := rfl
@[simp] theorem State.setDraws_cpl (s : State) (v : Nat) : (s.setDraws v).cpl = s.cpl := rfl
@[simp] theorem State.setDraws_seg (s : State) (v : Nat) : (s.setDraws v).seg = s.seg := rfl
@[simp] theorem State.setDraws_sys (s : State) (v : Nat) : (s.setDraws v).sys = s.sys := rfl
@[simp] theorem State.setDraws_cr (s : State) (v : Nat) : (s.setDraws v).cr = s.cr := rfl
@[simp] theorem State.setDraws_dr (s : State) (v : Nat) : (s.setDraws v).dr = s.dr := rfl
@[simp] theorem State.setDraws_msr (s : State) (v : Nat) : (s.setDraws v).msr = s.msr := rfl
@[simp] theorem State.setDraws_fpu (s : State) (v : Nat) : (s.setDraws v).fpu = s.fpu := rfl
@[simp] theorem State.setDraws_mem (s : State) (v : Nat) : (s.setDraws v).mem = s.mem := rfl
@[simp] theorem State.setDraws_cache (s : State) (v : Nat) : (s.setDraws v).cache = s.cache := rfl
@[simp] theorem State.setDraws_other (s : State) (v : Nat) : (s.setDraws v).other = s.other := rfl
@[simp] theorem State.setDraws_smm (s : State) (v : Nat) : (s.setDraws v).smm = s.smm := rfl
@[simp] theorem State.setDraws_intr (s : State) (v : Nat) : (s.setDraws v).intr = s.intr := rfl
@[simp] theorem State.setDraws_scr (s : State) (v : Nat) : (s.setDraws v).scr = s.scr := rfl
@[simp] theorem State.setDraws_clock (s : State) (v : Nat) : (s.setDraws v).clock = s.clock := rfl
@[simp] theorem State.setDraws_pins (s : State) (v : Nat) : (s.setDraws v).pins = s.pins := rfl
@[simp] theorem State.setDraws_test (s : State) (v : Nat) : (s.setDraws v).test = s.test := rfl
@[simp] theorem State.setDraws_bus (s : State) (v : Nat) : (s.setDraws v).bus = s.bus := rfl
@[simp] theorem State.setDraws_biu (s : State) (v : Nat) : (s.setDraws v).biu = s.biu := rfl
@[simp] theorem State.setDraws_draws (s : State) (v : Nat) : (s.setDraws v).draws = v := rfl
@[simp] theorem State.setDraws_plat (s : State) (v : Nat) : (s.setDraws v).plat = s.plat := rfl
@[simp] theorem State.setPlat_gpr (s : State) (v : Platform) : (s.setPlat v).gpr = s.gpr := rfl
@[simp] theorem State.setPlat_eip (s : State) (v : Platform) : (s.setPlat v).eip = s.eip := rfl
@[simp] theorem State.setPlat_nextEip (s : State) (v : Platform) : (s.setPlat v).nextEip = s.nextEip := rfl
@[simp] theorem State.setPlat_flags (s : State) (v : Platform) : (s.setPlat v).flags = s.flags := rfl
@[simp] theorem State.setPlat_cpl (s : State) (v : Platform) : (s.setPlat v).cpl = s.cpl := rfl
@[simp] theorem State.setPlat_seg (s : State) (v : Platform) : (s.setPlat v).seg = s.seg := rfl
@[simp] theorem State.setPlat_sys (s : State) (v : Platform) : (s.setPlat v).sys = s.sys := rfl
@[simp] theorem State.setPlat_cr (s : State) (v : Platform) : (s.setPlat v).cr = s.cr := rfl
@[simp] theorem State.setPlat_dr (s : State) (v : Platform) : (s.setPlat v).dr = s.dr := rfl
@[simp] theorem State.setPlat_msr (s : State) (v : Platform) : (s.setPlat v).msr = s.msr := rfl
@[simp] theorem State.setPlat_fpu (s : State) (v : Platform) : (s.setPlat v).fpu = s.fpu := rfl
@[simp] theorem State.setPlat_mem (s : State) (v : Platform) : (s.setPlat v).mem = s.mem := rfl
@[simp] theorem State.setPlat_cache (s : State) (v : Platform) : (s.setPlat v).cache = s.cache := rfl
@[simp] theorem State.setPlat_other (s : State) (v : Platform) : (s.setPlat v).other = s.other := rfl
@[simp] theorem State.setPlat_smm (s : State) (v : Platform) : (s.setPlat v).smm = s.smm := rfl
@[simp] theorem State.setPlat_intr (s : State) (v : Platform) : (s.setPlat v).intr = s.intr := rfl
@[simp] theorem State.setPlat_scr (s : State) (v : Platform) : (s.setPlat v).scr = s.scr := rfl
@[simp] theorem State.setPlat_clock (s : State) (v : Platform) : (s.setPlat v).clock = s.clock := rfl
@[simp] theorem State.setPlat_pins (s : State) (v : Platform) : (s.setPlat v).pins = s.pins := rfl
@[simp] theorem State.setPlat_test (s : State) (v : Platform) : (s.setPlat v).test = s.test := rfl
@[simp] theorem State.setPlat_bus (s : State) (v : Platform) : (s.setPlat v).bus = s.bus := rfl
@[simp] theorem State.setPlat_biu (s : State) (v : Platform) : (s.setPlat v).biu = s.biu := rfl
@[simp] theorem State.setPlat_draws (s : State) (v : Platform) : (s.setPlat v).draws = s.draws := rfl
@[simp] theorem State.setPlat_plat (s : State) (v : Platform) : (s.setPlat v).plat = v := rfl

end Sys2Proof.Machine
end

