-- ==== Sys2Proof/Laws/Memory.lean ====
section
/-! SUPPORT. Memory: a read after a write, and the canonical form, for every operation that writes memory. -/
namespace Sys2Proof.Machine

open Sys2Proof

/-! ### Reads after writes -/

theorem Memory.read_erase (m : Memory) (a b : Nat) :
    (m.erase a).read b = if b = a then unlisted else m.read b := by
  induction m with
  | nil => simp [Memory.erase, Memory.read]
  | cons c t ih =>
    obtain ⟨k, v⟩ := c
    simp only [Memory.erase]
    split
    · rw [ih]
      by_cases h : b = a <;> simp_all [Memory.read]
      intro h'; omega
    · simp only [Memory.read]
      split
      · split <;> simp_all
      · exact ih

theorem Memory.read_insert (m : Memory) (a b : Nat) (v : Byte) :
    (m.insert a v).read b = if b = a then v else m.read b := by
  induction m with
  | nil =>
    by_cases h : b = a
    · simp [Memory.insert, Memory.read, h]
    · simp [Memory.insert, Memory.read, h]; intro h'; omega
  | cons c t ih =>
    obtain ⟨k, x⟩ := c
    simp only [Memory.insert]
    split
    · rename_i h
      by_cases hb : b = a
      · simp [Memory.read, hb]
      · have : ¬ a = b := fun h => hb h.symm
        simp [Memory.read, hb, this, h]
    · split
      · by_cases hb : b = a
        · simp [Memory.read, hb]
        · have : ¬ a = b := fun h => hb h.symm
          simp [Memory.read, hb, this]
      · simp only [Memory.read]
        split
        · rename_i h1 h2 h3
          have : ¬ b = a := by omega
          simp [this]
        · exact ih

/-- A byte written is read back, and every other address keeps its byte. -/
theorem Memory.read_write (m : Memory) (a b : Nat) (v : Byte) :
    (m.write a v).read b = if b = a then v else m.read b := by
  unfold Memory.write
  split
  · rename_i h; rw [Memory.read_erase, h]
  · exact Memory.read_insert m a b v

/-- A run of bytes leaves the addresses outside it as they were. -/
theorem Memory.read_writes_out (m : Memory) (a b : Nat) (vs : List Byte)
    (h : b < a ∨ a + vs.length ≤ b) : (m.writes a vs).read b = m.read b := by
  induction vs generalizing m a with
  | nil => rfl
  | cons v t ih =>
    simp only [List.length_cons] at h
    rw [Memory.writes, ih _ _ (by omega), Memory.read_write, if_neg (by omega)]

/-! ### The canonical form -/

theorem Memory.wfFrom_erase (m : Memory) (lo : Option Nat) (a : Nat) (h : Memory.wfFrom lo m = true) :
    Memory.wfFrom lo (m.erase a) = true := by
  have weaken : ∀ (m : Memory) (k : Nat) (lo : Option Nat), (∀ l, lo = some l → l < k) →
      Memory.wfFrom (some k) m = true → Memory.wfFrom lo m = true := by
    intro m k lo hl
    cases m with
    | nil => intro _; rfl
    | cons c t =>
      obtain ⟨j, v⟩ := c
      simp only [Memory.wfFrom, Bool.and_eq_true, decide_eq_true_eq]
      rintro ⟨⟨h1, h2⟩, h3⟩
      refine ⟨⟨?_, h2⟩, h3⟩
      cases lo with
      | none => rfl
      | some l => have := hl l rfl; simp; omega
  induction m generalizing lo with
  | nil => exact h
  | cons c t ih =>
    obtain ⟨k, v⟩ := c
    simp only [Memory.wfFrom, Bool.and_eq_true, decide_eq_true_eq] at h
    obtain ⟨⟨h1, h2⟩, h3⟩ := h
    simp only [Memory.erase]
    split
    · apply weaken _ k lo _ (ih _ h3)
      intro l hl
      subst hl
      simpa using h1
    · simp only [Memory.wfFrom, Bool.and_eq_true, decide_eq_true_eq]
      exact ⟨⟨h1, h2⟩, ih _ h3⟩

theorem Memory.wfFrom_insert (m : Memory) : ∀ (lo : Option Nat) (a : Nat) (v : Byte), v ≠ unlisted →
    (∀ l, lo = some l → l < a) → Memory.wfFrom lo m = true → Memory.wfFrom lo (m.insert a v) = true := by
  induction m with
  | nil =>
    intro lo a v hv hl _
    cases lo with
    | none => simp [Memory.insert, Memory.wfFrom, hv]
    | some l => simp [Memory.insert, Memory.wfFrom, hv, hl l rfl]
  | cons c t ih =>
    obtain ⟨k, x⟩ := c
    intro lo a v hv hl h
    simp only [Memory.wfFrom, Bool.and_eq_true, decide_eq_true_eq] at h
    obtain ⟨⟨h1, h2⟩, h3⟩ := h
    simp only [Memory.insert]
    split
    · rename_i hk
      subst hk
      simp only [Memory.wfFrom, Bool.and_eq_true, decide_eq_true_eq]
      exact ⟨⟨h1, hv⟩, h3⟩
    · split
      · rename_i hk hlt
        simp only [Memory.wfFrom, Bool.and_eq_true, decide_eq_true_eq]
        refine ⟨⟨?_, hv⟩, ⟨hlt, h2⟩, h3⟩
        cases lo with
        | none => rfl
        | some l => simpa using hl l rfl
      · rename_i hk hlt
        simp only [Memory.wfFrom, Bool.and_eq_true, decide_eq_true_eq]
        refine ⟨⟨h1, h2⟩, ih (some k) a v hv ?_ h3⟩
        intro l hl'
        cases hl'
        omega

/-- Writing a byte keeps the canonical form. -/
theorem Memory.wf_write (m : Memory) (a : Nat) (v : Byte) (h : m.wf = true) : (m.write a v).wf = true := by
  unfold Memory.write
  split
  · exact Memory.wfFrom_erase m none a h
  · rename_i hv
    exact Memory.wfFrom_insert m none a v hv (by simp) h

/-- Writing a run of bytes keeps the canonical form. -/
theorem Memory.wf_writes (m : Memory) (a : Nat) (vs : List Byte) (h : m.wf = true) : (m.writes a vs).wf = true := by
  induction vs generalizing m a with
  | nil => exact h
  | cons v t ih => exact ih _ _ (Memory.wf_write m a v h)

/-- Physical writes keep the canonical form. -/
theorem wf_physWrites (m : Memory) (a : Nat) (vs : List Byte) (h : m.wf = true) : (physWrites m a vs).wf = true := by
  induction vs generalizing m a with
  | nil => exact h
  | cons v t ih => exact ih _ _ (Memory.wf_write m _ v h)

/-- Memories in canonical form that read alike are the same. -/
theorem Memory.ext_of_read (m n : Memory) (hm : m.wf = true) (hn : n.wf = true) (h : ∀ a, m.read a = n.read a) :
    m = n := by
  have below : ∀ (m : Memory) (k a : Nat), Memory.wfFrom (some k) m = true → a ≤ k → m.read a = unlisted := by
    intro m
    induction m with
    | nil => intros; rfl
    | cons c t ih =>
      obtain ⟨j, v⟩ := c
      intro k a hw ha
      simp only [Memory.wfFrom, Bool.and_eq_true, decide_eq_true_eq] at hw
      obtain ⟨⟨h1, h2⟩, h3⟩ := hw
      simp only [Memory.read]
      rw [if_neg (by omega)]
      exact ih j a h3 (by omega)
  have go : ∀ (m n : Memory) (lo : Option Nat), Memory.wfFrom lo m = true → Memory.wfFrom lo n = true →
      (∀ a, m.read a = n.read a) → m = n := by
    intro m
    induction m with
    | nil =>
      intro n lo _ hn h
      cases n with
      | nil => rfl
      | cons c t =>
        obtain ⟨k, v⟩ := c
        simp only [Memory.wfFrom, Bool.and_eq_true, decide_eq_true_eq] at hn
        have := h k
        simp [Memory.read] at this
        exact absurd this.symm hn.1.2
    | cons c t ih =>
      obtain ⟨k, v⟩ := c
      intro n lo hm hn h
      simp only [Memory.wfFrom, Bool.and_eq_true, decide_eq_true_eq] at hm
      cases n with
      | nil =>
        have := h k
        simp [Memory.read] at this
        exact absurd this hm.1.2
      | cons d u =>
        obtain ⟨j, w⟩ := d
        simp only [Memory.wfFrom, Bool.and_eq_true, decide_eq_true_eq] at hn
        have hkj : k = j := by
          rcases Nat.lt_trichotomy k j with hlt | he | hgt
          · have h1 := h k
            simp only [Memory.read, if_true, if_neg (show ¬ j = k by omega)] at h1
            rw [below u j k hn.2 (by omega)] at h1
            exact absurd h1 hm.1.2
          · exact he
          · have h1 := h j
            simp only [Memory.read, if_true, if_neg (show ¬ k = j by omega)] at h1
            rw [below t k j hm.2 (by omega)] at h1
            exact absurd h1.symm hn.1.2
        subst hkj
        have hv : v = w := by have := h k; simpa [Memory.read] using this
        subst hv
        have := ih u (some k) hm.2 hn.2 (by
          intro a
          by_cases ha : a = k
          · subst ha
            rw [below t a a hm.2 (Nat.le_refl _), below u a a hn.2 (Nat.le_refl _)]
          · have h1 := h a
            simpa [Memory.read, Ne.symm ha] using h1)
        rw [this]
  exact go m n none hm hn h

end Sys2Proof.Machine
end

