-- ==== Sys2Proof/Laws/Monad.lean ====
section
/-! SUPPORT. Running the computations of a meaning one piece at a time. -/
namespace Sys2Proof.Machine

open Sys2Proof

theorem M.bind_ok {α β : Type} {m : M α} {f : α → M β} {s t : State} {a : α} (h : m s = .ok a t) :
    (m >>= f) s = f a t := by
  show EStateM.bind m f s = _
  simp only [EStateM.bind, h]

theorem M.bind_error {α β : Type} {m : M α} {f : α → M β} {s t : State} {x : Stop} (h : m s = .error x t) :
    (m >>= f) s = .error x t := by
  show EStateM.bind m f s = _
  simp only [EStateM.bind, h]

@[simp] theorem M.pure_run {α : Type} (a : α) (s : State) : (pure a : M α) s = .ok a s := rfl
@[simp] theorem M.get_run (s : State) : (get : M State) s = .ok s s := rfl
@[simp] theorem M.set_run (s t : State) : (set t : M PUnit) s = .ok ⟨⟩ t := rfl
@[simp] theorem M.throw_run {α : Type} (x : Stop) (s : State) : (throw x : M α) s = .error x s := rfl
@[simp] theorem M.get_bind {α : Type} (f : State → M α) (s : State) : ((get : M State) >>= f) s = f s s := rfl
@[simp] theorem M.set_bind {α : Type} (t : State) (f : PUnit → M α) (s : State) :
    ((set t : M PUnit) >>= f) s = f ⟨⟩ t := rfl
@[simp] theorem M.pure_bind {α β : Type} (a : α) (f : α → M β) (s : State) : ((pure a : M α) >>= f) s = f a s := rfl
@[simp] theorem update_run (f : State → State) (s : State) : update f s = .ok () (f s) := rfl
@[simp] theorem update_bind {α : Type} (f : State → State) (g : Unit → M α) (s : State) :
    (update f >>= g) s = g () (f s) := rfl
@[simp] theorem check_true (v : Byte) (e : Option Half) (s : State) : check true v e s = .ok () s := rfl
@[simp] theorem check_false (v : Byte) (e : Option Half) (s : State) :
    check false v e s = .error (.exc (Exc.fault v e)) s := rfl
@[simp] theorem check_true_bind {α : Type} (v : Byte) (e : Option Half) (f : Unit → M α) (s : State) :
    (check true v e >>= f) s = f () s := rfl
@[simp] theorem check_false_bind {α : Type} (v : Byte) (e : Option Half) (f : Unit → M α) (s : State) :
    (check false v e >>= f) s = .error (.exc (Exc.fault v e)) s := rfl
@[simp] theorem raise_run {α : Type} (v : Byte) (e : Option Half) (s : State) :
    (raise v e : M α) s = .error (.exc (Exc.fault v e)) s := rfl
@[simp] theorem raise_bind {α β : Type} (v : Byte) (e : Option Half) (f : α → M β) (s : State) :
    (raise v e >>= f) s = .error (.exc (Exc.fault v e)) s := rfl
@[simp] theorem refuse_run {α : Type} (r : Refusal) (s : State) : (refuse r : M α) s = .error (.refused r) s := rfl
@[simp] theorem drawBit_run (s : State) : drawBit s = .ok (Config.freeBit s.draws) (s.setDraws (s.draws + 1)) := rfl
@[simp] theorem drawBits_run (w : Nat) (s : State) :
    drawBits w s = .ok (Config.freeBits w s.draws) (s.setDraws (s.draws + 1)) := rfl
@[simp] theorem drawBit_bind {α : Type} (f : Bool → M α) (s : State) :
    (drawBit >>= f) s = f (Config.freeBit s.draws) (s.setDraws (s.draws + 1)) := rfl
@[simp] theorem drawBits_bind {α : Type} (w : Nat) (f : BitVec w → M α) (s : State) :
    (drawBits w >>= f) s = f (Config.freeBits w s.draws) (s.setDraws (s.draws + 1)) := rfl

/-- A computation that ends well in a sequence ended well in its first part. -/
theorem M.bind_eq_ok {α β : Type} {m : M α} {f : α → M β} {s u : State} {b : β} (h : (m >>= f) s = .ok b u) :
    ∃ a t, m s = .ok a t ∧ f a t = .ok b u := by
  cases hm : m s with
  | ok a t => exact ⟨a, t, rfl, by rwa [M.bind_ok hm] at h⟩
  | error x t => rw [M.bind_error hm] at h; cases h

end Sys2Proof.Machine
end

