-- ==== Sys2Proof/Laws/Access.lean ====
section
/-! SUPPORT. What an access does in a plain state (`State.flat`): its checks, its bytes, and nothing else. -/
namespace Sys2Proof.Machine

open Sys2Proof

/-! ### The address of a byte and of the next -/

theorem and_add_andNot (w m : Word) : (w &&& ~~~m).toNat + (w &&& m).toNat = w.toNat := by
  have h : (w &&& ~~~m) + (w &&& m) = w := by
    rw [BitVec.add_eq_or_of_and_eq_zero]
    · ext j
      simp
      cases w[j] <;> cases m[j] <;> rfl
    · ext j
      simp
      intro h1 h2 h3
      simp_all
  have h2 := congrArg BitVec.toNat h
  rw [BitVec.toNat_add_of_and_eq_zero] at h2
  · exact h2
  · ext j
    simp
    intro h1 h2 h3
    simp_all

/-- Clearing a bit subtracts it where it was set. -/
theorem toNat_putBit_false (w : Word) (i : Nat) (hi : i < 32) :
    (putBit w i false).toNat + (if w.toNat.testBit i then 2 ^ i else 0) = w.toNat := by
  have h : putBit w i false = w &&& ~~~(BitVec.twoPow 32 i) := by simp [putBit, bitAt]
  have h2 : (w &&& BitVec.twoPow 32 i).toNat = if w.toNat.testBit i then 2 ^ i else 0 := by
    rw [BitVec.and_twoPow]
    simp only [BitVec.getLsbD]
    split <;> simp [BitVec.toNat_twoPow, Nat.mod_eq_of_lt (Nat.pow_lt_pow_right (by decide : 1 < 2) hi)]
  rw [h, ← h2]
  exact and_add_andNot w _

/-- Within a page the masked linear address of the next byte is the next address. -/
theorem maskA20_succ (s : State) (x : Word) (h : (s.maskA20 (x + 1)).toNat % 4096 ≠ 0) :
    (s.maskA20 (x + 1)).toNat = (s.maskA20 x).toNat + 1 := by
  unfold State.maskA20 at *
  have add : x.toNat + 1 < 2 ^ 32 → (x + 1).toNat = x.toNat + 1 := by
    intro hlt
    rw [BitVec.toNat_add]
    exact Nat.mod_eq_of_lt hlt
  have wrap : ¬ x.toNat + 1 < 2 ^ 32 → (x + 1).toNat = 0 := by
    intro hge
    have := x.isLt
    rw [BitVec.toNat_add]
    have : x.toNat + 1 = 2 ^ 32 := by omega
    simp [this]
  by_cases hx : x.toNat + 1 < 2 ^ 32
  · specialize add hx
    by_cases hc : (s.pins.a20m && s.mode == .real) = true
    · rw [if_pos hc] at h ⊢
      rw [if_pos hc]
      have h1 := toNat_putBit_false (x + 1) 20 (by decide)
      have h2 := toNat_putBit_false x 20 (by decide)
      rw [add] at h1
      simp only [Nat.testBit_eq_decide_div_mod_eq, decide_eq_true_eq] at h1 h2
      have e : (x.toNat + 1) / 2 ^ 20 = x.toNat / 2 ^ 20 := by
        split at h1 <;> omega
      rw [e] at h1
      split at h1 <;> simp_all <;> omega
    · rw [if_neg hc] at h ⊢
      rw [if_neg hc, add]
  · specialize wrap hx
    exfalso
    by_cases hc : (s.pins.a20m && s.mode == .real) = true
    · rw [if_pos hc] at h
      have h1 := toNat_putBit_false (x + 1) 20 (by decide)
      rw [wrap] at h1
      apply h
      rw [show (putBit (x + 1) 20 false).toNat = 0 by omega]
    · rw [if_neg hc, wrap] at h
      simp at h

/-! ### Opening an access -/

/-- A byte of a plain access. -/
def State.byt (s : State) (la : Word) : Byt :=
  { la := la, pa := la.toNat, us := true, wr := true, pcd := s.cd, pwt := false }

/-- The translation of a plain access. -/
def State.plainXlat (s : State) (la : Word) : Xlat :=
  { pa := la.toNat, us := true, wr := true, pcd := s.cd, pwt := false }

theorem translate_off (la : Word) (a : Access) (s : State) (h : s.pg = false) :
    translate la a s = .ok (s.plainXlat la) s := by
  simp [translate, h, State.plainXlat]

/-- The bytes of a plain access: each at its linear address. -/
theorem spanBytes_off (a : Access) (la : Nat → Word) (s : State) (hpg : s.pg = false)
    (hla : ∀ i, (la (i + 1)).toNat % 4096 ≠ 0 → (la (i + 1)).toNat = (la i).toNat + 1) (k : Nat) :
    ∀ (i : Nat) (prev : Option Xlat),
      (∀ x, prev = some x → ∃ j, i = j + 1 ∧ x = s.plainXlat (la j)) →
      spanBytes a la k i prev s = .ok ((List.range k).map fun j => s.byt (la (i + j))) s := by
  induction k with
  | zero => intro i prev _; rfl
  | succ k ih =>
    intro i prev hp
    have hx : pageXlat (la i) a prev s = .ok (s.plainXlat (la i)) s := by
      cases prev with
      | none => exact translate_off _ _ _ hpg
      | some x =>
        obtain ⟨j, rfl, rfl⟩ := hp x rfl
        unfold pageXlat
        split
        · exact translate_off _ _ _ hpg
        · rename_i hn
          unfold State.plainXlat
          rw [hla j hn]
          rfl
    unfold spanBytes
    refine (M.bind_ok hx).trans ((M.bind_ok (ih (i + 1) _ ?_)).trans ?_)
    · intro x hx
      cases hx
      exact ⟨i, rfl, rfl⟩
    · simp [List.range_succ_eq_map, State.byt, State.plainXlat, Function.comp_def, Nat.add_assoc, Nat.add_comm 1]

/-- The bytes of a plain access through a segment. -/
def State.plainBytes (s : State) (seg : Seg) (off : Word) (n : Nat) : List Byt :=
  (List.range n).map fun k => s.byt (s.linear seg (off + BitVec.ofNat 32 k))

theorem linear_succ (s : State) (seg : Seg) (off : Word) (i : Nat)
    (h : (s.linear seg (off + BitVec.ofNat 32 (i + 1))).toNat % 4096 ≠ 0) :
    (s.linear seg (off + BitVec.ofNat 32 (i + 1))).toNat = (s.linear seg (off + BitVec.ofNat 32 i)).toNat + 1 := by
  have e : (s.seg.get seg).base + (off + BitVec.ofNat 32 (i + 1))
      = (s.seg.get seg).base + (off + BitVec.ofNat 32 i) + 1 := by
    rw [BitVec.ofNat_add]
    simp only [BitVec.add_assoc]
    rfl
  unfold State.linear at *
  rw [e] at h ⊢
  exact maskA20_succ s _ h

theorem xlatSeg_off (seg : Seg) (off : Word) (n : Nat) (a : Access) (s : State) (h : s.pg = false) :
    xlatSeg seg off n a s = .ok (s.plainBytes seg off n) s := by
  unfold xlatSeg
  rw [M.get_bind]
  rw [spanBytes_off a _ s h (fun i hi => linear_succ s seg off i hi) n 0 none (by simp)]
  simp [State.plainBytes]

theorem State.flat_pg {s : State} (h : s.flat = true) : s.pg = false := by
  simp [State.flat] at h; exact h.1.1.1
theorem State.flat_foreign {s : State} (h : s.flat = true) : s.cache.foreign = false := by
  simp [State.flat] at h; exact h.1.1.2
theorem State.flat_ram {s : State} (h : s.flat = true) : ramOnly s.plat = true := by
  simp [State.flat] at h; exact h.1.2
theorem State.flat_dr7 {s : State} (h : s.flat = true) : s.dr.dr7.extractLsb' 0 8 = 0 := by
  simp [State.flat] at h; exact h.2

theorem noteData_flat (w : Bool) (bs : List Byt) (s : State) (h : s.flat = true) : noteData w bs s = .ok () s := by
  simp [noteData, State.flat_dr7 h]

theorem segCheck_ok {seg : Seg} {off : Word} {n : Nat} {s : State} (k : Kind) (hk : k ≠ .execute)
    (h : s.inSeg seg off n k.writes = true) : segCheck seg off n k s = .ok () s := by
  have ha : ∀ a : SegAttr, (if k.writes = true then a.writable else a.readable) = a.admits k := by
    cases k <;> first | exact fun _ => rfl | exact absurd rfl hk
  unfold State.inSeg at h
  unfold segCheck
  rw [M.get_bind]
  cases hm : s.mode <;> simp only [hm] at h ⊢
  · simp only [h]; rfl
  · rw [ha, Bool.and_eq_true] at h
    simp only [h.1, h.2]; rfl
  · simp only [h]; rfl
  · rfl

/-- The access is that of a push or a pop. -/
def Kind.stack (k : Kind) : Bool := k == .push || k == .pop

theorem segCheck_denied {seg : Seg} {off : Word} {n al : Nat} {s : State} (k : Kind) (hk : k ≠ .execute)
    (h : s.inSeg seg off n k.writes = false) :
    segCheck seg off n k s = .error (.exc (Exc.fault (s.denies ⟨k.stack, seg, off, n, al, k.writes⟩) (some 0))) s := by
  have ha : ∀ a : SegAttr, (if k.writes = true then a.writable else a.readable) = a.admits k := by
    cases k <;> first | exact fun _ => rfl | exact absurd rfl hk
  have hv : (if k.stack = true then vSS else vGP) = k.accessVec := by cases k <;> first | rfl | exact absurd rfl hk
  have hg : (if seg = .ss then vSS else vGP) = segVec seg := by cases seg <;> rfl
  simp only [State.denies, h, ha, hv, hg]
  unfold State.inSeg at h
  unfold segCheck
  rw [M.get_bind]
  cases hm : s.mode <;> simp only [hm, ha] at h ⊢
  · simp only [h]; rfl
  · cases hn : nullSel (s.seg.get seg).sel <;> cases hw : (s.seg.get seg).attr.admits k <;> simp_all
  · simp only [h]; rfl
  · cases h

theorem alignCheck_denied (seg : Seg) (off : Word) (al : Nat) (s : State) (h : s.alignedAt seg off al = false) :
    alignCheck (s.linear seg off) al s = .error (.exc (Exc.fault vAC (some 0))) s := by
  unfold State.alignedAt State.byteAddr at h
  unfold alignCheck
  rw [M.get_bind]
  simp only [BitVec.add_zero] at h
  simp only [h]
  rfl

theorem alignCheck_ok (seg : Seg) (off : Word) (al : Nat) (s : State) (h : s.alignedAt seg off al = true) :
    alignCheck (s.linear seg off) al s = .ok () s := by
  unfold State.alignedAt State.byteAddr at h
  unfold alignCheck
  rw [M.get_bind]
  simp only [BitVec.add_zero] at h
  simp only [h]
  rfl

/-- An access that is permitted opens its bytes and changes nothing. -/
theorem openAs_flat {s : State} {seg : Seg} {off : Word} {n al : Nat} (k : Kind) (hk : k ≠ .execute) (hf : s.flat = true)
    (h : s.may seg off n al k.writes = true) : openAs k seg off n al s = .ok (s.plainBytes seg off n) s := by
  simp only [State.may, Bool.and_eq_true] at h
  unfold openAs
  rw [M.bind_ok (segCheck_ok k hk h.1), M.get_bind, M.bind_ok (alignCheck_ok _ _ _ _ h.2),
    M.bind_ok (xlatSeg_off _ _ _ _ _ (State.flat_pg hf)), M.bind_ok (noteData_flat _ _ _ hf)]
  rfl

/-- An access that is not permitted raises its fault before anything else of it. -/
theorem openAs_denied {s : State} {seg : Seg} {off : Word} {n al : Nat} (k : Kind) (hk : k ≠ .execute)
    (h : s.allows ⟨k.stack, seg, off, n, al, k.writes⟩ = false) :
    openAs k seg off n al s = .error (.exc (Exc.fault (s.denies ⟨k.stack, seg, off, n, al, k.writes⟩) (some 0))) s := by
  unfold openAs
  cases hs : s.inSeg seg off n k.writes
  · exact M.bind_error (segCheck_denied k hk hs)
  · rw [M.bind_ok (segCheck_ok k hk hs), M.get_bind]
    simp only [State.allows, State.may, hs, Bool.true_and] at h
    simp only [State.denies, hs, if_true]
    exact M.bind_error (alignCheck_denied _ _ _ _ h)

theorem openRmw_denied {s : State} {seg : Seg} {off : Word} {n al : Nat}
    (h : s.allows ⟨false, seg, off, n, al, true⟩ = false) :
    openRmw seg off n al s = .error (.exc (Exc.fault (s.denies ⟨false, seg, off, n, al, true⟩) (some 0))) s := by
  unfold openRmw
  cases hs : s.inSeg seg off n true
  · exact M.bind_error (segCheck_denied (off := off) (al := al) .write (by decide) hs)
  · rw [M.bind_ok (segCheck_ok .write (by decide) hs), M.get_bind]
    simp only [State.allows, State.may, hs, Bool.true_and] at h
    simp only [State.denies, hs, if_true]
    exact M.bind_error (alignCheck_denied _ _ _ _ h)

theorem openRead_flat {s : State} {seg : Seg} {off : Word} {n al : Nat} (hf : s.flat = true)
    (h : s.may seg off n al false = true) : openRead seg off n al s = .ok (s.plainBytes seg off n) s :=
  openAs_flat .read (by decide) hf h

theorem openWrite_flat {s : State} {seg : Seg} {off : Word} {n al : Nat} (hf : s.flat = true)
    (h : s.may seg off n al true = true) : openWrite seg off n al s = .ok (s.plainBytes seg off n) s :=
  openAs_flat .write (by decide) hf h

theorem openRmw_flat {s : State} {seg : Seg} {off : Word} {n al : Nat} (hf : s.flat = true)
    (h : s.may seg off n al true = true) : openRmw seg off n al s = .ok (s.plainBytes seg off n) s := by
  simp only [State.may, Bool.and_eq_true] at h
  unfold openRmw
  rw [M.bind_ok (segCheck_ok .write (by decide) h.1), M.get_bind, M.bind_ok (alignCheck_ok _ _ _ _ h.2),
    M.bind_ok (xlatSeg_off _ _ _ _ _ (State.flat_pg hf)), M.bind_ok (xlatSeg_off _ _ _ _ _ (State.flat_pg hf)),
    M.bind_ok (noteData_flat _ _ _ hf)]
  rfl

/-! ### Moving the bytes -/

/-- A map that is RAM throughout has no ROM. -/
theorem romAt_ram {p : Platform} (h : ramOnly p = true) (pa : Nat) : romAt p pa = false := by
  unfold romAt
  split
  · rfl
  · rename_i r hr
    have := List.all_eq_true.1 h r (List.mem_of_find?_eq_some hr)
    rw [eq_of_beq this]
    rfl

/-- A state that differs from another in its caches and its draws alone, no cached line differing from memory. -/
def Quiet (s t : State) : Prop := ∃ c d, t = (s.setCache c).setDraws d ∧ c.foreign = false

theorem Quiet.refl {s : State} (h : s.cache.foreign = false) : Quiet s s := ⟨s.cache, s.draws, rfl, h⟩

theorem Quiet.cache (s : State) {c : Caches} (h : c.foreign = false) : Quiet s (s.setCache c) := ⟨c, s.draws, rfl, h⟩

theorem Quiet.trans {s t u : State} (h1 : Quiet s t) (h2 : Quiet t u) : Quiet s u := by
  obtain ⟨c, d, rfl, _⟩ := h1
  obtain ⟨c', d', rfl, h'⟩ := h2
  exact ⟨c', d', rfl, h'⟩

theorem Quiet.foreign {s t : State} (h : Quiet s t) : t.cache.foreign = false := by
  obtain ⟨c, d, rfl, h⟩ := h
  exact h

theorem Quiet.mem {s t : State} (h : Quiet s t) : t.mem = s.mem := by
  obtain ⟨c, d, rfl, h⟩ := h
  rfl

theorem Quiet.plat {s t : State} (h : Quiet s t) : t.plat = s.plat := by
  obtain ⟨c, d, rfl, h⟩ := h
  rfl

/-- One more operation on a quiet state. -/
theorem Quiet.step {s t : State} {f : State → State} (h : Quiet s t)
    (hf : ∀ u : State, u.cache.foreign = false → Quiet u (f u)) : Quiet s (f t) := h.trans (hf t h.foreign)

theorem note_quiet (e : CacheEvent) {s : State} (h : s.cache.foreign = false) : Quiet s (note e s) := Quiet.cache s h

theorem answer_quiet (a b : Bool) {s : State} (h : s.cache.foreign = false) : Quiet s (answer a b s) := Quiet.cache s h

theorem writeBack_quiet (line : Nat) {s : State} (h : s.cache.foreign = false) : Quiet s (writeBack line s) := by
  exact Quiet.cache s h

theorem writeBackIf_quiet (l : DLine) {s : State} (h : s.cache.foreign = false) : Quiet s (writeBackIf s l) := by
  unfold writeBackIf
  split
  · exact writeBack_quiet _ h
  · exact Quiet.refl h

theorem writeBacks_quiet (ls : List DLine) : ∀ {s : State}, s.cache.foreign = false → Quiet s (ls.foldl writeBackIf s) := by
  induction ls with
  | nil => exact fun h => Quiet.refl h
  | cons l ls ih => exact fun h => (writeBackIf_quiet l h).step fun _ h => ih h

theorem placeD_quiet (l : DLine) {s : State} (h : s.cache.foreign = false) : Quiet s (placeD l s) := by
  unfold placeD
  dsimp only
  split
  · exact Quiet.cache s h
  · have hd : Quiet s (s.setDraws (s.draws + 1)) := ⟨s.cache, s.draws + 1, rfl, h⟩
    have hw := hd.step (f := fun u => (((s.cache.dlines.filter fun x => x.line % 64 == l.line % 64).filter
      fun x => x.way == (Config.freeBits 2 s.draws).toNat).foldl writeBackIf u)) fun _ => writeBacks_quiet _
    have hu := hw.foreign
    rw [if_neg (by rw [hu]; decide)]
    exact hw.step (f := fun u => u.setCache { u.cache with dlines := _ }) fun u h => Quiet.cache u h

theorem reply_quiet (line : Nat) (f : Snoop → Bool) {s : State} (h : s.cache.foreign = false) :
    Quiet s (s.setCache (s.cache.reply line f)) := Quiet.cache s h

theorem fillD_quiet (l : DLine) {s : State} (h : s.cache.foreign = false) : Quiet s (fillD l s) := by
  unfold fillD
  dsimp only
  split
  · exact reply_quiet _ _ h
  · exact (reply_quiet _ _ h).step fun _ => placeD_quiet _

theorem meetSingle_quiet (c : Bool) (line : Nat) {s : State} (h : s.cache.foreign = false) :
    Quiet s (meetSingle c line s) := by
  unfold meetSingle
  split
  · exact reply_quiet _ _ h
  · exact Quiet.refl h

theorem readLine_quiet (n : Nat) (b : Byt) {s : State} (h : s.cache.foreign = false) : Quiet s (readLine n b s) := by
  unfold readLine
  dsimp only
  split
  · split
    · exact Quiet.refl h
    · exact Quiet.cache s h
  · split
    · exact (note_quiet _ h).step fun _ => fillD_quiet _
    · exact (note_quiet _ h).step fun _ => meetSingle_quiet _ _

theorem dropLine_quiet (line : Nat) {s : State} (h : s.cache.foreign = false) : Quiet s (dropLine line s) := by
  unfold dropLine
  split
  · exact Quiet.refl h
  · rename_i l _
    obtain ⟨c, d, e, hc⟩ := writeBackIf_quiet l h
    refine ⟨c.dDrop line, d, ?_, hc⟩
    dsimp only
    rw [e, uncover, h]
    rfl

theorem evictLine_quiet (line : Nat) {s : State} (h : s.cache.foreign = false) : Quiet s (evictLine line s) :=
  (dropLine_quiet _ h).step (f := fun u => u.setCache (u.cache.iDrop line)) fun u hu => Quiet.cache u (c := u.cache.iDrop _) hu

theorem lockedRead_quiet (scyc : Bool) (n : Nat) (b : Byt) {s : State} (h : s.cache.foreign = false) :
    Quiet s (lockedRead scyc n b s) := note_quiet _ h

/-- What is done with each unit of an access disturbs only the caches if each part does. -/
theorem eachUnit_quiet (u : Nat) {f : Nat → Byt → State → State}
    (hf : ∀ n b (s : State), s.cache.foreign = false → Quiet s (f n b s)) (bs : List Byt) :
    ∀ (prev : Option Nat) {s : State}, s.cache.foreign = false → Quiet s (eachUnit u f prev bs s) := by
  induction bs with
  | nil => intro prev s h; exact Quiet.refl h
  | cons b t ih =>
    intro prev s h
    unfold eachUnit
    split
    · exact ih _ h
    · exact (hf _ b s h).step fun _ h => ih _ h

theorem evictLines_quiet (bs : List Byt) {s : State} (h : s.cache.foreign = false) : Quiet s (evictLines bs s) :=
  eachUnit_quiet _ (fun _ b _ => evictLine_quiet (lineOf b.pa)) bs none h

/-- Reading opened bytes, locked or not, gives what memory holds and disturbs only the caches. -/
theorem peekAs_quiet (lock : Bool) (bs : List Byt) {s : State} (h : s.cache.foreign = false) :
    ∃ t, Quiet s t ∧ peekAs lock bs s = .ok (s.bytesAt bs) t := by
  cases lock
  · have q : Quiet s (touchLines bs s) := eachUnit_quiet _ (fun n b _ => readLine_quiet n b) bs none h
    refine ⟨_, q, ?_⟩
    show EStateM.Result.ok ((touchLines bs s).bytesAt bs) _ = _
    simp [State.bytesAt, q.mem]
  · have q : Quiet s (lockLines bs s) :=
      (evictLines_quiet bs h).step fun _ => eachUnit_quiet _ (fun n b _ => lockedRead_quiet _ n b) bs none
    refine ⟨_, q, ?_⟩
    show EStateM.Result.ok ((lockLines bs s).bytesAt bs) _ = _
    simp [State.bytesAt, q.mem]

theorem peek_quiet (bs : List Byt) {s : State} (h : s.cache.foreign = false) :
    ∃ t, Quiet s t ∧ peek bs s = .ok (s.bytesAt bs) t := peekAs_quiet false bs h

/-! ### Storing -/

/-- Bytes written one by one. -/
def writeAt (m : Memory) (l : List (Byt × Byte)) : Memory := l.foldl (fun m x => m.write x.1.pa x.2) m

/-- A write of a unit changes only the caches; where memory is RAM no line comes to differ from it. -/
theorem writeLine_cache (lock scyc : Bool) (vs : List Byte) (b : Byt) (s : State) :
    ∃ c, writeLine lock scyc vs b s = s.setCache c ∧ (romAt s.plat b.pa = false → c.foreign = s.cache.foreign) := by
  unfold writeLine
  dsimp only
  split
  · exact ⟨_, rfl, fun _ => rfl⟩
  · split
    · refine ⟨_, rfl, fun h => ?_⟩
      show (s.cache.foreign || romAt s.plat b.pa) = _
      rw [h, Bool.or_false]
    · refine ⟨_, rfl, fun h => ?_⟩
      show (s.cache.foreign || romAt s.plat b.pa) = _
      rw [h, Bool.or_false]

theorem patchBack_cache (b : Byt) (v : Byte) (s : State) :
    ∃ c, patchBack b v s = s.setCache c ∧ c.foreign = s.cache.foreign := by
  unfold patchBack
  split
  · split
    · split
      · exact ⟨_, rfl, rfl⟩
      · exact ⟨_, rfl, rfl⟩
    · exact ⟨_, rfl, rfl⟩
  · exact ⟨_, rfl, rfl⟩

theorem markCode_cache (b : Byt) (s : State) : ∃ c, markCode b s = s.setCache c ∧ c.foreign = s.cache.foreign := by
  refine ⟨_, rfl, ?_⟩
  unfold addMark
  split <;> rfl

/-- The store of a byte: memory changes there alone, if at all, and in RAM it does. -/
theorem storeByte_eq (b : Byt) (v : Byte) (s : State) :
    ∃ c m, storeByte b v s = (s.setMem m).setCache c ∧ c.foreign = s.cache.foreign ∧ (m = s.mem ∨ m = s.mem.write b.pa v) ∧
      (romAt s.plat b.pa = false → m = s.mem.write b.pa v) := by
  obtain ⟨c1, e1, f1⟩ := markCode_cache b s
  obtain ⟨c2, e2, f2⟩ := patchBack_cache b v (s.setCache c1)
  have e : patchBack b v (markCode b s) = s.setCache c2 := by rw [e1, e2]; rfl
  unfold storeByte
  rw [e]
  dsimp only
  split
  · rename_i h
    refine ⟨c2, s.mem, rfl, f2.trans f1, .inl rfl, fun hr => ?_⟩
    rw [State.setCache_plat, hr] at h
    cases h
  · exact ⟨c2, _, rfl, f2.trans f1, .inr rfl, fun _ => rfl⟩

/-- A store to RAM writes its bytes to memory and otherwise disturbs only the caches. -/
theorem storeBytes_eq (u : Nat) (lock scyc : Bool) (l : List (Byt × Byte)) : ∀ (prev : Option Nat) (s : State),
    ramOnly s.plat = true →
    ∃ c, storeBytes u lock scyc prev l s = (s.setMem (writeAt s.mem l)).setCache c ∧ c.foreign = s.cache.foreign := by
  induction l with
  | nil => intro prev s _; exact ⟨s.cache, rfl, rfl⟩
  | cons x t ih =>
    intro prev s hr
    obtain ⟨b, v⟩ := x
    unfold storeBytes
    dsimp only
    have hw : ∃ c, (if prev = some (b.pa / u) then s
          else writeLine lock scyc (v :: (t.takeWhile fun x => x.1.pa / u == b.pa / u).map (·.2)) b s) = s.setCache c
        ∧ c.foreign = s.cache.foreign := by
      split
      · exact ⟨s.cache, rfl, rfl⟩
      · obtain ⟨c, e, f⟩ := writeLine_cache lock scyc (v :: (t.takeWhile fun x => x.1.pa / u == b.pa / u).map (·.2)) b s
        exact ⟨c, e, f (romAt_ram hr _)⟩
    obtain ⟨c1, h1, f1⟩ := hw
    rw [h1]
    obtain ⟨c2, m, h2, f2, -, hm⟩ := storeByte_eq b v (s.setCache c1)
    rw [h2, hm (romAt_ram hr _)]
    obtain ⟨c3, h3, f3⟩ := ih (some (b.pa / u)) (((s.setCache c1).setMem ((s.setCache c1).mem.write b.pa v)).setCache c2) hr
    rw [h3]
    exact ⟨c3, rfl, by rw [f3]; exact f2.trans f1⟩

theorem pokeAs_eq (lock : Bool) (bs : List Byt) (vs : List Byte) {s : State} (hr : ramOnly s.plat = true) :
    ∃ c, pokeAs lock bs vs s = .ok () ((s.setMem (writeAt s.mem (bs.zip vs))).setCache c)
      ∧ c.foreign = s.cache.foreign := by
  obtain ⟨c, h, f⟩ := storeBytes_eq (busUnit bs.length) lock (lock && splits (busUnit bs.length) bs) (bs.zip vs) none s hr
  exact ⟨c, congrArg _ h, f⟩

theorem poke_eq (bs : List Byt) (vs : List Byte) {s : State} (hr : ramOnly s.plat = true) :
    ∃ c, poke bs vs s = .ok () ((s.setMem (writeAt s.mem (bs.zip vs))).setCache c) ∧ c.foreign = s.cache.foreign :=
  pokeAs_eq false bs vs hr

theorem writeAt_wf (l : List (Byt × Byte)) : ∀ (m : Memory), m.wf = true → (writeAt m l).wf = true := by
  induction l with
  | nil => intro m h; exact h
  | cons x t ih => intro m h; exact ih _ (Memory.wf_write m _ _ h)

theorem writeAt_out (l : List (Byt × Byte)) (a : Nat) : ∀ (m : Memory), (∀ x ∈ l, x.1.pa ≠ a) →
    (writeAt m l).read a = m.read a := by
  induction l with
  | nil => intro m _; rfl
  | cons x t ih =>
    intro m h
    show (writeAt (m.write x.1.pa x.2) t).read a = _
    rw [ih _ (fun y hy => h y (List.mem_cons_of_mem _ hy)), Memory.read_write,
      if_neg (fun e => h x List.mem_cons_self e.symm)]

/-- Reading back what was written at distinct addresses. -/
theorem writeAt_read (la : Nat → Byt) : ∀ (vs : List Byte) (i : Nat) (m : Memory),
    (∀ j k, i ≤ j → j < k → k < i + vs.length → (la j).pa ≠ (la k).pa) → ∀ k, k < vs.length →
    (writeAt m (((List.range vs.length).map fun j => la (i + j)).zip vs)).read (la (i + k)).pa = vs.getD k 0 := by
  intro vs
  induction vs with
  | nil => intro i m _ k hk; cases hk
  | cons v t ih =>
    intro i m hd k hk
    have e : ((List.range (v :: t).length).map fun j => la (i + j)).zip (v :: t)
        = (la i, v) :: ((List.range t.length).map fun j => la (i + 1 + j)).zip t := by
      simp [List.range_succ_eq_map, Function.comp_def, Nat.add_assoc, Nat.add_comm 1]
    rw [e]
    show (writeAt (m.write (la i).pa v) _).read _ = _
    cases k with
    | zero =>
      rw [writeAt_out, Nat.add_zero, Memory.read_write, if_pos rfl]
      · rfl
      · intro x hx
        obtain ⟨j, hj, e⟩ := List.mem_map.1 (List.of_mem_zip hx).1
        rw [← e]
        exact (hd i (i + 1 + j) (Nat.le_refl _) (by omega)
          (by have := List.mem_range.1 hj; simp only [List.length_cons]; omega)).symm
    | succ k =>
      have := ih (i + 1) (m.write (la i).pa v)
        (fun a b h1 h2 h3 => hd a b (by omega) h2 (by simp only [List.length_cons]; omega)) k
        (by simpa using hk)
      rw [show i + (k + 1) = i + 1 + k by omega, this]
      rfl

/-! ### The bytes of an operand -/

theorem linear_eq (s : State) (seg : Seg) (off : Word) :
    s.linear seg off = if s.pins.a20m && s.mode == .real then putBit ((s.seg.get seg).base + off) 20 false
      else (s.seg.get seg).base + off := rfl

/-- Sixteen consecutive offsets of a segment have sixteen different addresses. -/
theorem byteAddr_ne (s : State) (seg : Seg) (off : Word) (j k : Nat) (hj : j < k) (hk : k < 16) :
    s.byteAddr seg off j ≠ s.byteAddr seg off k := by
  unfold State.byteAddr
  rw [linear_eq, linear_eq]
  have hadd : ∀ i : Nat, i < 16 → ((s.seg.get seg).base + (off + BitVec.ofNat 32 i)).toNat
      = ((s.seg.get seg).base.toNat + off.toNat + i) % 4294967296 := by
    intro i hi
    simp only [BitVec.toNat_add, BitVec.toNat_ofNat]
    omega
  have h1 := hadd j (by omega)
  have h2 := hadd k hk
  split
  · have e1 := toNat_putBit_false ((s.seg.get seg).base + (off + BitVec.ofNat 32 j)) 20 (by decide)
    have e2 := toNat_putBit_false ((s.seg.get seg).base + (off + BitVec.ofNat 32 k)) 20 (by decide)
    split at e1 <;> split at e2 <;> omega
  · omega

theorem bytesAt_plain (s : State) (seg : Seg) (off : Word) (n : Nat) :
    s.bytesAt (s.plainBytes seg off n) = s.bytes seg off n := by
  simp [State.bytesAt, State.plainBytes, State.bytes, State.byt, State.byteAddr, Function.comp_def]

theorem bytes_length (s : State) (seg : Seg) (off : Word) (n : Nat) : (s.bytes seg off n).length = n := by
  simp [State.bytes]

theorem plainBytes_length (s : State) (seg : Seg) (off : Word) (n : Nat) : (s.plainBytes seg off n).length = n := by
  simp [State.plainBytes]

/-- The memory after bytes are written at an offset of a segment. -/
def State.stored (s : State) (seg : Seg) (off : Word) (vs : List Byte) : Memory :=
  writeAt s.mem ((s.plainBytes seg off vs.length).zip vs)

/-- Bytes written at an offset of a segment are stored there, and nowhere else. -/
theorem stored_spec (s t : State) (seg : Seg) (off : Word) (vs : List Byte) (hn : vs.length ≤ 16)
    (ht : t.mem = s.stored seg off vs) : Stored s t seg off vs := by
  rw [Stored, ht]
  refine ⟨fun k hk => ?_, fun a ha => ?_⟩
  · have := writeAt_read (fun j => s.byt (s.linear seg (off + BitVec.ofNat 32 j))) vs 0 s.mem
      (fun i j _ hij hj => byteAddr_ne s seg off i j hij (by omega)) k hk
    simpa [State.stored, State.plainBytes, State.byteAddr, State.byt] using this
  · apply writeAt_out
    intro x hx
    obtain ⟨j, hj, e⟩ := List.mem_map.1 (List.of_mem_zip hx).1
    rw [← e]
    exact (ha j (List.mem_range.1 hj)).symm

theorem stored_wf (s : State) (seg : Seg) (off : Word) (vs : List Byte) (h : s.mem.wf = true) :
    (s.stored seg off vs).wf = true := writeAt_wf _ _ h

/-! ### Loads, stores and updates in a plain state -/

/-- A load reads the bytes at the offset and disturbs only the caches. -/
theorem loadBytes_flat {s : State} {seg : Seg} {off : Word} {n al : Nat} (hf : s.flat = true)
    (h : s.may seg off n al false = true) :
    ∃ t, Quiet s t ∧ loadBytes seg off n al s = .ok (s.bytes seg off n) t := by
  obtain ⟨t, hq, ht⟩ := peek_quiet (s.plainBytes seg off n) (State.flat_foreign hf)
  refine ⟨t, hq, ?_⟩
  unfold loadBytes
  rw [M.bind_ok (openRead_flat hf h), ht, bytesAt_plain]

/-- A pop reads the bytes at the offset and disturbs only the caches. -/
theorem popBytes_flat {s : State} {off : Word} {n : Nat} (hf : s.flat = true) (h : s.may .ss off n n false = true) :
    ∃ t, Quiet s t ∧ popBytes off n s = .ok (s.bytes .ss off n) t := by
  obtain ⟨t, hq, ht⟩ := peek_quiet (s.plainBytes .ss off n) (State.flat_foreign hf)
  refine ⟨t, hq, ?_⟩
  unfold popBytes
  rw [M.bind_ok (openAs_flat .pop (by decide) hf h), ht, bytesAt_plain]

/-- A store writes its bytes at the offset and otherwise disturbs only the caches. -/
theorem writeBytes_flat {s : State} {seg : Seg} {off : Word} {al : Nat} {vs : List Byte} (hf : s.flat = true)
    (h : s.may seg off vs.length al true = true) :
    ∃ c, c.foreign = false ∧ writeBytes seg off al vs s = .ok () ((s.setMem (s.stored seg off vs)).setCache c) := by
  obtain ⟨c, hp, hc⟩ := poke_eq (s.plainBytes seg off vs.length) vs (State.flat_ram hf)
  refine ⟨c, hc.trans (State.flat_foreign hf), ?_⟩
  unfold writeBytes
  rw [M.bind_ok (openWrite_flat hf h), hp]
  rfl

/-- A read-modify-write: the value is computed from the old one, in a state that differs in its caches alone. -/
theorem modifyAt_flat {lock : Bool} {seg : Seg} {off : Word} {sz : Size} {f : Modify sz} {s : State}
    (hf : s.flat = true) (h : s.may seg off sz.bytes sz.bytes true = true)
    (hk : ∀ x u, (f x u).2.mem = u.mem ∧ (f x u).2.cache = u.cache ∧ (f x u).2.plat = u.plat) :
    ∃ u c, Quiet s u ∧ c.foreign = false ∧ modifyAt lock seg off sz f s = .ok ()
      (((f (s.value seg off sz.bytes sz.bits) u).2.setMem
        (s.stored seg off (toLe sz.bytes (f (s.value seg off sz.bytes sz.bits) u).1))).setCache c) := by
  obtain ⟨u, hq, hu⟩ := peekAs_quiet lock (s.plainBytes seg off sz.bytes) (State.flat_foreign hf)
  rw [bytesAt_plain] at hu
  have ev : (ofLe sz.bits (s.bytes seg off sz.bytes) : BitVec sz.bits) = s.value seg off sz.bytes sz.bits := rfl
  obtain ⟨hm, hcc, hpl⟩ := hk (s.value seg off sz.bytes sz.bits) u
  have hr : ramOnly (f (s.value seg off sz.bytes sz.bits) u).2.plat = true := by
    rw [hpl, hq.plat]
    exact State.flat_ram hf
  obtain ⟨c, hp, hc⟩ := pokeAs_eq lock (s.plainBytes seg off sz.bytes)
    (toLe sz.bytes (f (s.value seg off sz.bytes sz.bits) u).1) hr
  refine ⟨u, c, hq, ?_, ?_⟩
  · rw [hc, hcc]
    exact hq.foreign
  · unfold modifyAt
    rw [M.bind_ok (openRmw_flat hf h)]
    unfold modifyBytes
    rw [M.bind_ok hu]
    show pokeAs _ _ _ _ = _
    rw [ev, hp, hm, hq.mem, State.stored, toLe_length]

end Sys2Proof.Machine
end

