-- ==== Sys2Proof/Laws/Operands.lean ====
section
/-! SUPPORT. What reading, writing and modifying an operand does in a plain state, and how a meaning becomes an outcome. -/
namespace Sys2Proof.Machine

open Sys2Proof

/-! ### The running of a meaning -/

theorem run_ok {m : M Unit} {s t : State} (h : m s.advance = .ok () t) : run m s = .next t := by
  unfold run
  rw [h]

theorem run_exc {m : M Unit} {s t : State} {x : Exc} (h : m s.advance = .error (.exc x) t) :
    run m s = takeException x s t := by
  unfold run
  rw [h]

theorem run_wait {m : M Unit} {s t : State} (h : m s.advance = .error .wait t) :
    run m s = .next (s.setScr { s.scr with noTrap := true }) := by
  unfold run
  rw [h]

theorem run_refused {m : M Unit} {s t : State} {r : Refusal} (h : m s.advance = .error (.refused r) t) :
    run m s = .refused r := by
  unfold run
  rw [h]

/-! ### The state a meaning begins in -/

@[simp] theorem advance_gpr (s : State) : s.advance.gpr = s.gpr := rfl
@[simp] theorem advance_eip (s : State) : s.advance.eip = s.nextEip := rfl
@[simp] theorem advance_nextEip (s : State) : s.advance.nextEip = s.nextEip := rfl
@[simp] theorem advance_flags (s : State) : s.advance.flags = s.flags := rfl
@[simp] theorem advance_cpl (s : State) : s.advance.cpl = s.cpl := rfl
@[simp] theorem advance_seg (s : State) : s.advance.seg = s.seg := rfl
@[simp] theorem advance_sys (s : State) : s.advance.sys = s.sys := rfl
@[simp] theorem advance_cr (s : State) : s.advance.cr = s.cr := rfl
@[simp] theorem advance_dr (s : State) : s.advance.dr = s.dr := rfl
@[simp] theorem advance_msr (s : State) : s.advance.msr = s.msr := rfl
@[simp] theorem advance_fpu (s : State) : s.advance.fpu = s.fpu := rfl
@[simp] theorem advance_mem (s : State) : s.advance.mem = s.mem := rfl
@[simp] theorem advance_cache (s : State) : s.advance.cache = s.cache := rfl
@[simp] theorem advance_smm (s : State) : s.advance.smm = s.smm := rfl
@[simp] theorem advance_intr (s : State) : s.advance.intr = s.intr := rfl
@[simp] theorem advance_scr (s : State) : s.advance.scr = { s.scr with start := s.eip } := rfl
@[simp] theorem advance_clock (s : State) : s.advance.clock = s.clock := rfl
@[simp] theorem advance_pins (s : State) : s.advance.pins = s.pins := rfl
@[simp] theorem advance_test (s : State) : s.advance.test = s.test := rfl
@[simp] theorem advance_bus (s : State) : s.advance.bus = s.bus := rfl
@[simp] theorem advance_draws (s : State) : s.advance.draws = s.draws := rfl
@[simp] theorem advance_other (s : State) : s.advance.other = s.other := rfl
@[simp] theorem advance_biu (s : State) : s.advance.biu = s.biu := rfl
@[simp] theorem advance_plat (s : State) : s.advance.plat = s.plat := rfl
@[simp] theorem advance_mode (s : State) : s.advance.mode = s.mode := rfl
@[simp] theorem advance_level (s : State) : s.advance.level = s.level := rfl
@[simp] theorem advance_flat (s : State) : s.advance.flat = s.flat := rfl
@[simp] theorem advance_byteAddr (s : State) (seg : Seg) (off : Word) (k : Nat) :
    s.advance.byteAddr seg off k = s.byteAddr seg off k := rfl
@[simp] theorem advance_may (s : State) (seg : Seg) (off : Word) (n al : Nat) (w : Bool) :
    s.advance.may seg off n al w = s.may seg off n al w := rfl
@[simp] theorem advance_bytes (s : State) (seg : Seg) (off : Word) (n : Nat) :
    s.advance.bytes seg off n = s.bytes seg off n := rfl
@[simp] theorem advance_value (s : State) (seg : Seg) (off : Word) (n w : Nat) :
    s.advance.value seg off n w = s.value seg off n w := rfl
@[simp] theorem advance_stored (s : State) (seg : Seg) (off : Word) (vs : List Byte) :
    s.advance.stored seg off vs = s.stored seg off vs := rfl
@[simp] theorem advance_mayUse (s : State) (sz : Size) (w : Bool) (pl : Place) :
    s.advance.mayUse sz w pl = s.mayUse sz w pl := rfl
@[simp] theorem advance_get (s : State) (sz : Size) (pl : Place) : s.advance.get sz pl = s.get sz pl := by
  cases pl <;> rfl

theorem wrote_advance {s t : State} {sz : Size} {v : BitVec sz.bits} {pl : Place} :
    Wrote s.advance t sz v pl ↔ Wrote s t sz v pl := by
  cases pl <;> exact Iff.rfl

/-! ### Operands in a plain state -/

theorem Quiet.get {s t : State} (h : Quiet s t) (sz : Size) (pl : Place) : t.get sz pl = s.get sz pl := by
  obtain ⟨c, d, rfl, _⟩ := h
  cases pl <;> rfl

/-- A load of a value. -/
theorem loadVal_flat {s : State} {seg : Seg} {off : Word} {sz : Size} (hf : s.flat = true)
    (h : s.may seg off sz.bytes sz.bytes false = true) :
    ∃ t, Quiet s t ∧ loadVal seg off sz s = .ok (s.value seg off sz.bytes sz.bits) t := by
  obtain ⟨t, hq, ht⟩ := loadBytes_flat hf h
  exact ⟨t, hq, M.bind_ok ht⟩

/-- A store of a value. -/
theorem storeVal_flat {s : State} {seg : Seg} {off : Word} {sz : Size} {v : BitVec sz.bits} (hf : s.flat = true)
    (h : s.may seg off sz.bytes sz.bytes true = true) :
    ∃ c, c.foreign = false ∧ storeVal seg off sz v s = .ok ()
      ((s.setMem (s.stored seg off (toLe sz.bytes v))).setCache c) := by
  unfold storeVal
  apply writeBytes_flat hf
  rw [toLe_length]
  exact h

/-- Reading an operand gives the value of its place. -/
theorem loadRm_flat {p : Pfx} {sz : Size} {rm : RM} {s : State} (hf : s.flat = true)
    (h : s.mayUse sz false (placeOf p s.gpr rm) = true) :
    ∃ t, Quiet s t ∧ loadRm p sz rm s = .ok (s.get sz (placeOf p s.gpr rm)) t := by
  cases rm with
  | reg r => exact ⟨s, Quiet.refl (State.flat_foreign hf), rfl⟩
  | mem m => exact loadVal_flat hf h

theorem wrote_mem {s t : State} {sz : Size} {v : BitVec sz.bits} {seg : Seg} {off : Word} (hg : t.gpr = s.gpr)
    (hm : t.mem = s.stored seg off (toLe sz.bytes v)) : Wrote s t sz v (.mem seg off) := by
  refine ⟨hg, stored_spec _ _ _ _ _ ?_ hm⟩
  rw [toLe_length]
  cases sz <;> decide

/-- Writing an operand writes its place, and otherwise disturbs only the caches. -/
theorem storeRm_flat {p : Pfx} {sz : Size} {rm : RM} {v : BitVec sz.bits} {s : State} (hf : s.flat = true)
    (h : s.mayUse sz true (placeOf p s.gpr rm) = true) :
    ∃ g m c, storeRm p sz rm v s = .ok () (((s.setGpr g).setMem m).setCache c) ∧ c.foreign = false ∧
      ∀ t : State, t.gpr = g → t.mem = m → Wrote s t sz v (placeOf p s.gpr rm) := by
  cases rm with
  | reg r => exact ⟨_, s.mem, s.cache, rfl, State.flat_foreign hf, fun t hg hm => ⟨hg, hm⟩⟩
  | mem mo =>
    obtain ⟨c, hc, e⟩ := storeVal_flat (v := v) hf h
    exact ⟨s.gpr, _, c, e, hc, fun t hg hm => wrote_mem hg hm⟩

/-- Modifying an operand writes its place with the value computed from the old one. -/
theorem modifyRm_flat {p : Pfx} {sz : Size} {rm : RM} {f : Modify sz} {s : State} (hf : s.flat = true)
    (h : s.mayUse sz true (placeOf p s.gpr rm) = true)
    (hk : ∀ x u, (f x u).2.mem = u.mem ∧ (f x u).2.cache = u.cache ∧ (f x u).2.plat = u.plat ∧ (f x u).2.gpr = u.gpr) :
    ∃ u g m c, Quiet s u ∧ modifyRm p sz rm f s = .ok ()
        ((((f (s.get sz (placeOf p s.gpr rm)) u).2.setGpr g).setMem m).setCache c) ∧ c.foreign = false ∧
      ∀ t : State, t.gpr = g → t.mem = m →
        Wrote s t sz (f (s.get sz (placeOf p s.gpr rm)) u).1 (placeOf p s.gpr rm) := by
  cases rm with
  | reg r =>
    obtain ⟨h1, h2, -, h3⟩ := hk (s.view sz r) s
    refine ⟨s, (s.gpr.putView sz r (f (s.view sz r) s).1), s.mem, s.cache, Quiet.refl (State.flat_foreign hf), ?_,
      State.flat_foreign hf, fun t hg hm => ⟨hg, hm⟩⟩
    show EStateM.Result.ok () ((f (s.view sz r) s).2.putView sz r (f (s.view sz r) s).1) = _
    rw [State.putView, h3]
    show _ = EStateM.Result.ok () ((((f (s.view sz r) s).2.setGpr _).setMem s.mem).setCache s.cache)
    rw [← h1, ← h2]
    rfl
  | mem mo =>
    obtain ⟨u, c, hq, hc, e⟩ := modifyAt_flat (lock := p.lock) hf h (fun x u => ⟨(hk x u).1, (hk x u).2.1, (hk x u).2.2.1⟩)
    obtain ⟨-, -, -, h3⟩ := hk (s.value (segFor p mo) (effAddr mo s.gpr) sz.bytes sz.bits) u
    refine ⟨u, u.gpr, _, c, hq, ?_, hc, fun t hg hm => wrote_mem ?_ hm⟩
    · show modifyAt p.lock (segFor p mo) (effAddr mo s.gpr) sz f s = _
      rw [e, ← h3]
      rfl
    · rw [hg]
      obtain ⟨c, d, rfl, _⟩ := hq
      rfl

end Sys2Proof.Machine
end

