-- ==== Sys2Proof/Laws/Alu.lean ====
section
/-! SUPPORT. What the shared operations of the arithmetic instructions do in a plain state. -/
namespace Sys2Proof.Machine

open Sys2Proof

/-! ### The frame of a state reached by updates -/

/-- A state that differs from the one a meaning began in by its registers, flags, memory, caches and draws alone. -/
theorem frame_of {s u : State} (h : ∃ g f m c d, u = ((((s.advance.setGpr g).setFlags f).setMem m).setCache c).setDraws d) :
    Frame s u := by
  obtain ⟨g, f, m, c, d, rfl⟩ := h
  exact { cpl := rfl, seg := rfl, sys := rfl, cr := rfl, dr := rfl, msr := rfl, fpu := rfl, smm := rfl, intr := rfl,
          scr := rfl, clock := rfl, pins := rfl, test := rfl, other := rfl, biu := rfl, plat := rfl, eip := rfl, bus := rfl }

/-- The flags of an operation are those of its flag set, drawn from somewhere. -/
theorem putFlags_eq (s : State) (x : FlagSet) :
    ∃ d, s.putFlags x = (s.setFlags (x.flags s.flags s.draws)).setDraws d := ⟨_, rfl⟩

/-- A modification that sets only the flags: the result and the flags come from the value and the old flags. -/
theorem modifyFlags_flat {p : Pfx} {sz : Size} {rm : RM} {f : Modify sz} {s : State}
    {r : BitVec sz.bits → Flags → BitVec sz.bits × FlagSet}
    (hf : s.flat = true) (h : s.mayUse sz true (placeOf p s.gpr rm) = true)
    (hr : ∀ x u, f x u = ((r x u.flags).1, u.putFlags (r x u.flags).2)) :
    ∃ t n, run (modifyRm p sz rm f) s = .next t ∧ Frame s t ∧
      t.flags = (r (s.get sz (placeOf p s.gpr rm)) s.flags).2.flags s.flags n ∧
      Wrote s t sz (r (s.get sz (placeOf p s.gpr rm)) s.flags).1 (placeOf p s.gpr rm) := by
  obtain ⟨u, g, m, c, hq, e, hc, hw⟩ := modifyRm_flat (p := p) (rm := rm) (f := f) (s := s.advance) hf h
    (by intro x u; rw [hr]; exact ⟨rfl, rfl, rfl, rfl⟩)
  obtain ⟨c', d', rfl, _⟩ := hq
  simp only [advance_gpr, advance_get, hr] at e hw
  exact ⟨_, _, run_ok e, frame_of ⟨g, _, m, c, _, rfl⟩, rfl, wrote_advance.1 (hw _ rfl rfl)⟩

/-- A computation that reads an operand and then only updates the state. -/
theorem loadThen_flat {p : Pfx} {sz : Size} {rm : RM} {f : BitVec sz.bits → State → State} {s : State}
    (hf : s.flat = true) (h : s.mayUse sz false (placeOf p s.gpr rm) = true) :
    ∃ c d, c.foreign = false ∧ run (loadRm p sz rm >>= fun y => update (f y)) s
      = .next (f (s.get sz (placeOf p s.gpr rm)) ((s.advance.setCache c).setDraws d)) := by
  obtain ⟨t, hq, ht⟩ := loadRm_flat (p := p) (sz := sz) (rm := rm) (s := s.advance) hf h
  obtain ⟨c, d, rfl, hc⟩ := hq
  refine ⟨c, d, hc, run_ok ?_⟩
  rw [advance_gpr, advance_get] at ht
  exact M.bind_ok ht

end Sys2Proof.Machine
end

