-- ==== Sys2Proof/Laws/Bus.lean ====
section
/-! SUPPORT. What the operations of the bus interface can change: each lemma says all of it, so that a proof about a step cites
it instead of unfolding the operation. -/
namespace Sys2Proof.Machine

open Sys2Proof

/-! ### The record of the step -/

/-- Recording an event changes the caches' record alone. -/
theorem note_eq (e : CacheEvent) (s : State) :
    note e s = { s with cache := { s.cache with events := e :: s.cache.events } } := rfl

/-- Answering an inquire cycle changes HIT# and HITM# alone. -/
theorem answer_eq (hit hitm : Bool) (s : State) :
    answer hit hitm s = { s with cache := { s.cache with hit := hit, hitm := hitm } } := rfl

/-- Driving the writeback of a line changes the caches' record and the inquire cycles it answers alone. -/
theorem writeBack_eq (line : Nat) (s : State) :
    writeBack line s = { s with cache := { s.cache with
      events := .cycle (writebackCycle s line) :: s.cache.events
      snoops := meetWriteback line (note (.cycle (writebackCycle s line)) s).cache.driven s.cache.snoops } } := rfl

/-- Discarding what was prefetched changes the marks and the prefetch cache alone. -/
theorem dropMarks_eq (s : State) :
    dropMarks s = { s with cache := { s.cache with marks := [], prefetch := [] } } := rfl

/-- A serializing instruction discards what was prefetched and records that it waits for EWBE#. -/
theorem serialize_eq (s : State) :
    serialize s = { s with cache := { s.cache with
      marks := [], prefetch := [], events := .serial :: s.cache.events } } := rfl

/-- Recording cycles, oldest first, changes the caches' record alone. -/
theorem noteAll_eq (cs : List Cycle) (s : State) :
    cs.foldl (fun s c => note (.cycle c) s) s =
      { s with cache := { s.cache with events := (cs.map CacheEvent.cycle).reverse ++ s.cache.events } } := by
  induction cs generalizing s with
  | nil => rfl
  | cons c cs ih => rw [List.foldl_cons, ih]; simp [note_eq]

/-- Driving a cycle that is not a memory access logs it on the bus and records its cycles. -/
theorem drive_eq (e : BusEvent) (s : State) :
    drive e s = { s with
      bus := e :: s.bus
      cache := { s.cache with events := (e.cycles.map CacheEvent.cycle).reverse ++ s.cache.events } } := by
  simp [drive, noteAll_eq, State.setBus]

/-- A special cycle is driven, and nothing prefetched outlives it. -/
theorem special_eq (be : Byte) (addr : Word) (s : State) :
    special be addr s = { s with
      bus := .special be addr 0 :: s.bus
      cache := { s.cache with
        marks := []
        prefetch := []
        events := ((BusEvent.special be addr 0).cycles.map CacheEvent.cycle).reverse ++ s.cache.events } } := by
  simp [special, dropMarks_eq, drive_eq]

/-! ### Inquire cycles and the copying back of lines -/

/-- Another state that differs in memory, the caches and the bus interface alone, with the same memory where no clean line differs
from main memory: what an inquire cycle can do. -/
def Snooped (s t : State) : Prop :=
  (∃ m c b, t = { s with mem := m, cache := c, biu := b }) ∧ (s.cache.foreign = false → t.mem = s.mem ∧ t.cache.foreign = false)

theorem Snooped.refl (s : State) : Snooped s s := ⟨⟨s.mem, s.cache, s.biu, rfl⟩, fun h => ⟨rfl, h⟩⟩

theorem Snooped.trans {s t u : State} (h1 : Snooped s t) (h2 : Snooped t u) : Snooped s u := by
  obtain ⟨⟨m, c, b, rfl⟩, hm⟩ := h1
  obtain ⟨⟨m', c', b', rfl⟩, hm'⟩ := h2
  exact ⟨⟨m', c', b', rfl⟩, fun h => ⟨(hm' (hm h).2).1.trans (hm h).1, (hm' (hm h).2).2⟩⟩

/-- A change of the caches that keeps their record of other masters. -/
theorem Snooped.ofCache (s : State) (c : Caches) (h : c.foreign = s.cache.foreign) : Snooped s (s.setCache c) :=
  ⟨⟨s.mem, c, s.biu, rfl⟩, fun hf => ⟨rfl, h.trans hf⟩⟩

theorem inquireData_snooped (line : Nat) (inv : Bool) (s : State) : Snooped s (inquireData line inv s) := by
  have driven (c d : Bool) (b : BusUnit) :
      Snooped s (if c then s else if d then s.setBiu b else driveSnooped .snooped line s) := by
    cases c <;> cases d <;> exact ⟨⟨_, _, _, rfl⟩, fun h => ⟨rfl, h⟩⟩
  unfold inquireData
  split
  · exact Snooped.refl s
  · rename_i l _
    dsimp only
    split
    · refine (driven _ _ _).trans ⟨⟨_, _, _, rfl⟩, fun h => ⟨?_, h⟩⟩
      exact if_neg (by rw [h, Bool.false_and]; exact Bool.false_ne_true)
    · exact (driven _ _ _).trans (Snooped.ofCache _ _ rfl)

/-- Remembering old code bytes keeps the record of other masters. -/
theorem addMarks_foreign {α : Type} (p : Caches → α → Prop) [∀ c a, Decidable (p c a)] (f : α → CodeMark) (as : List α) :
    ∀ c : Caches, (as.foldl (fun c a => if p c a then c else addMark (f a) c) c).foreign = c.foreign := by
  induction as with
  | nil => exact fun _ => rfl
  | cons a as ih =>
    intro c
    rw [List.foldl_cons, ih]
    split
    · rfl
    · unfold addMark
      split <;> rfl

theorem inquireCode_snooped (line : Nat) (inv : Bool) (s : State) : Snooped s (inquireCode line inv s) := by
  unfold inquireCode
  split
  · exact Snooped.refl s
  · split
    · exact Snooped.ofCache s _ rfl
    · refine Snooped.ofCache s _ ?_
      unfold markLine
      split
      · rfl
      · exact addMarks_foreign (fun _ _ => _) _ _ _

/-- An inquire cycle changes memory, the caches and the bus interface alone. -/
theorem snoopLine_snooped (line : Nat) (inv : Bool) (s : State) : Snooped s (snoopLine line inv s) := by
  unfold snoopLine
  split
  · exact Snooped.ofCache s _ rfl
  · exact (inquireData_snooped line _ s).trans ((inquireCode_snooped line _ _).trans (Snooped.ofCache _ _ rfl))

theorem snoopDuring_snooped (q : Snoop) (s : State) : Snooped s (snoopDuring q s) := by
  unfold snoopDuring
  dsimp only
  split
  · exact snoopLine_snooped _ _ s
  · exact (snoopLine_snooped _ _ s).trans (Snooped.ofCache _ _ rfl)

theorem answerFrom_snooped (f : Snoop → Bool) (qs : List Snoop) : ∀ (gap : Option Nat) (s : State),
    Snooped s (answerFrom f gap qs s) := by
  induction qs with
  | nil => exact fun _ s => Snooped.refl s
  | cons q qs ih =>
    intro gap s
    unfold answerFrom
    split
    · exact (Snooped.ofCache s _ rfl).trans (ih _ (keepSnoop q s))
    · split
      · exact ih _ s
      · exact (snoopDuring_snooped q s).trans ((Snooped.ofCache _ _ rfl).trans (ih _ (keepSnoop _ _)))

/-- The inquire cycles of a step change memory, the caches and the bus interface alone. -/
theorem answerArrived_snooped (f : Snoop → Bool) (s : State) : Snooped s (answerArrived f s) := by
  unfold answerArrived
  split
  · exact Snooped.refl s
  · exact (Snooped.ofCache s _ rfl).trans (answerFrom_snooped _ _ _ _)

/-- Copying one line back drives its writeback, and changes the caches and the count of free values alone. -/
theorem flushOne_eq (first : Nat) (rest : List Nat) (s : State) :
    flushOne first rest s = { s with cache := (flushOne first rest s).cache, draws := s.draws + rest.length } ∧
      (flushOne first rest s).cache.foreign = s.cache.foreign ∧
      (flushOne first rest s).cache.events =
        .cycle (writebackCycle s (chooseLine s.draws first rest)) :: s.cache.events := by
  unfold flushOne flushLine
  dsimp only
  split
  · exact ⟨rfl, rfl, rfl⟩
  · split <;> exact ⟨rfl, rfl, rfl⟩

/-- One of the lines is chosen. -/
theorem chooseLine_mem (first : Nat) (rest : List Nat) : ∀ draw : Nat, chooseLine draw first rest ∈ first :: rest := by
  induction rest generalizing first with
  | nil => exact fun _ => List.mem_singleton.mpr rfl
  | cons n t ih =>
    intro draw
    unfold chooseLine
    split
    · exact List.mem_cons_self
    · exact List.mem_cons_of_mem _ (ih n _)

/-! ### Around a step -/

/-- A step that waits lets time pass and notes what it waits for. -/
theorem waitStep_eq (s t : State) :
    waitStep s t = { s with
      msr := { s.msr with tsc := s.msr.tsc + BitVec.ofNat 64 (Config.clocks s.draws + 1) }
      draws := s.draws + 1
      biu := { s.biu with
        want := s.biu.want || (s.clock = .normal && offBus s (added s t)) || touchesSilent s.plat (added s t)
        hung := !offBus s (added s t) && !ewbeHolds s t && touchesSilent s.plat (added s t) } } := rfl

/-- A step that is done keeps its state but for BREQ and the wait for EWBE#. -/
theorem endStep_eq (s t : State) :
    endStep s t = { t with
      biu := { t.biu with
        want := s.biu.want || (added s t).any (·.requests)
        ewbeWait := !s.pins.ewbe && (s.biu.ewbeWait || (added s t).any (·.external)) } } := rfl

/-- The bus interface lets a step be done, or has it wait with nothing done. -/
theorem settle_cases (s t : State) :
    (stopped s t = true ∧ settle s t = abortCycle (waitStep s t) (answerSnoops (waitStep s t))) ∨
    (stopped s t = false ∧ settle s t = abortCycle (endStep s t) (answerSnoops (endStep s t))) := by
  unfold settle
  cases stopped s t <;> simp

/-- Without BOFF# in the way nothing is aborted. -/
theorem abortCycle_none {s : State} (h : s.biu.backoff = none) (t : State) : abortCycle s t = t := by simp [abortCycle, h]

/-- An aborted cycle changes the caches' record and the bus interface alone. -/
theorem abortCycle_eq (s t : State) :
    abortCycle s t = { t with cache := (abortCycle s t).cache, biu := (abortCycle s t).biu } := by
  unfold abortCycle
  split <;> rfl

/-- Without an inquire cycle in the way nothing is answered. -/
theorem answerArrived_nil {f : Snoop → Bool} {s : State} (h : s.cache.snoops = []) : answerArrived f s = s := by
  simp [answerArrived, h]

/-- Without an inquire cycle the outputs of the last one stay. -/
theorem reportSnoops_nil {s : State} (h : s.cache.snoops = []) : reportSnoops s = s := by simp [reportSnoops, h]

/-- Without an inquire cycle in the step it ends as it is. -/
theorem answerSnoops_nil {s : State} (h : s.cache.snoops = []) : answerSnoops s = s := by
  rw [answerSnoops, answerArrived_nil h, reportSnoops_nil h]

/-- A step on a bus that is the processor's, with no writeback waiting, whose every cycle is answered, is done. -/
theorem stopped_free {s t : State} (hb : s.busBusy = false) (hw : s.biu.writeback = none) (hr : s.pins.brdy = true)
    (he : s.pins.ewbe = true) (hm : touchesSilent s.plat (added s t) = false) : stopped s t = false := by
  simp [stopped, offBus, ewbeHolds, hb, hw, hr, he, hm]

/-- A step is opened with no writeback waiting if one that waited can be driven. -/
theorem openStep_writeback {s : State} (h : s.writebackWaits = false) : (openStep s).biu.writeback = none := by
  unfold openStep
  dsimp only
  split
  · assumption
  · split
    · rename_i hw
      exact absurd (h.symm.trans hw) (by decide)
    · rfl

/-- Opening a step changes the caches' record and the bus interface alone. -/
theorem openStep_eq (s : State) :
    openStep s = { s with cache := (openStep s).cache, biu := (openStep s).biu } := by
  unfold openStep
  dsimp only [State.setBiu, State.setCache, note, driveSnooped]
  split
  · rfl
  · split <;> rfl

/-- Opening a step leaves the lines, the translations and the marks as they are. -/
theorem openStep_cache (s : State) :
    (openStep s).cache.tlb = s.cache.tlb ∧ (openStep s).cache.dlines = s.cache.dlines ∧
      (openStep s).cache.ilines = s.cache.ilines ∧ (openStep s).cache.prefetch = s.cache.prefetch ∧
      (openStep s).cache.marks = s.cache.marks ∧
      (s.cache.snoops = [] → (openStep s).cache.snoops = []) := by
  unfold openStep
  dsimp only
  split
  · exact ⟨rfl, rfl, rfl, rfl, rfl, id⟩
  · split
    · exact ⟨rfl, rfl, rfl, rfl, rfl, id⟩
    · refine ⟨rfl, rfl, rfl, rfl, rfl, fun h => ?_⟩
      show s.cache.snoops.filter _ = []
      rw [h, List.filter_nil]

end Sys2Proof.Machine
end

