-- ==== Sys2Proof/Laws/Codec.lean ====
section
/-! SUPPORT. What the decoder does with what the encoder wrote, operand by operand (R263 to R269). -/
namespace Sys2Proof

/-! ### Fields and numbers -/

@[simp] theorem Reg.ofBits_toBits (r : Reg) : Reg.ofBits r.toBits = r := by cases r <;> rfl

theorem Reg.toBits_eq (r : Reg) : (r.toBits = 4 ↔ r = .esp) ∧ (r.toBits = 5 ↔ r = .ebp) := by cases r <;> decide

theorem Base16.ofBits_toBits {b : Base16} (h : b ≠ .abs) : Base16.ofBits b.toBits = b := by
  cases b <;> first | rfl | exact absurd rfl h

theorem fields_hi : ∀ (a : BitVec 2) (b c : BitVec 3), (fields a b c).extractLsb' 6 2 = a := by decide
theorem fields_mid : ∀ (a : BitVec 2) (b c : BitVec 3), (fields a b c).extractLsb' 3 3 = b := by decide
theorem fields_lo : ∀ (a : BitVec 2) (b c : BitVec 3), (fields a b c).extractLsb' 0 3 = c := by decide

theorem imm_giveLe_length (k v : Nat) : (giveLe k v).length = k := by
  induction k generalizing v with
  | zero => rfl
  | succ k ih => simp [giveLe, ih]

/-- Bytes of a number are read back as that number. -/
theorem takeLe_giveLe (k v : Nat) (rest : List Byte) (h : v < 256 ^ k) :
    takeLe k (giveLe k v ++ rest) = some (v, rest) := by
  induction k generalizing v with
  | zero => simp [giveLe, takeLe]; omega
  | succ k ih =>
    have hv : v / 256 < 256 ^ k := by rw [Nat.pow_succ] at h; exact Nat.div_lt_of_lt_mul (by omega)
    simp only [giveLe, List.cons_append, takeLe, ih _ hv, BitVec.toNat_ofNat]
    congr 2
    omega

/-- An immediate that fits is read back. -/
theorem takeLe_imm {o : OSz} {v : Word} (h : fits o v = true) (rest : List Byte) :
    takeLe o.bytes (encodeImm o v ++ rest) = some (v.toNat, rest) := by
  apply takeLe_giveLe
  cases o with
  | o16 => simpa [fits, OSz.bytes] using h
  | o32 => exact v.isLt

theorem encodeImm_length (o : OSz) (v : Word) : (encodeImm o v).length = o.bytes := imm_giveLe_length _ _

theorem take_half (v : Half) (rest : List Byte) : takeLe 2 (giveLe 2 v.toNat ++ rest) = some (v.toNat, rest) :=
  takeLe_giveLe 2 _ _ v.isLt

theorem take_word (v : Word) (rest : List Byte) : takeLe 4 (giveLe 4 v.toNat ++ rest) = some (v.toNat, rest) :=
  takeLe_giveLe 4 _ _ v.isLt

/-! ### Memory operands -/

/-- The encoding of a memory operand: a ModRM byte that names memory and the given register number, and the bytes from which
the operand is read back. -/
structure MemBytes (a : OSz) (reg : BitVec 3) (m : MemOp) (b : Byte) (tl : List Byte) : Prop where
  hi : b.extractLsb' 6 2 ≠ 3
  mid : b.extractLsb' 3 3 = reg
  back : ∀ rest, decodeMem a (b.extractLsb' 6 2) (b.extractLsb' 0 3) (tl ++ rest) = some (m, tl.length, rest)

theorem disp16 (b : BitVec 2) (reg lo : BitVec 3) (v : Half) (m : MemOp) (hb : b ≠ 3)
    (h : ∀ rest, decodeMem16 b lo (giveLe 2 v.toNat ++ rest) = some (m, 2, rest)) :
    MemBytes .o16 reg m (fields b reg lo) (giveLe 2 v.toNat) :=
  ⟨by rw [fields_hi]; exact hb, fields_mid .., fun rest => by
    rw [fields_hi, fields_lo, imm_giveLe_length]; exact h rest⟩

theorem disp32 (b : BitVec 2) (reg lo : BitVec 3) (tl : List Byte) (m : MemOp) (hb : b ≠ 3)
    (h : ∀ rest, decodeMem32 b lo (tl ++ rest) = some (m, tl.length, rest)) :
    MemBytes .o32 reg m (fields b reg lo) tl :=
  ⟨by rw [fields_hi]; exact hb, fields_mid .., fun rest => by rw [fields_hi, fields_lo]; exact h rest⟩

theorem encodeMem16 (reg : BitVec 3) (b : Base16) (d : Half) :
    ∃ x tl, encodeMem reg (.m16 b d) = x :: tl ∧ MemBytes .o16 reg (.m16 b d) x tl := by
  by_cases h : b = .abs
  · subst h
    exact ⟨_, _, rfl, disp16 _ _ _ _ _ (by decide) fun rest => by
      simp only [decodeMem16, take_half, if_true, BitVec.ofNat_toNat, BitVec.setWidth_eq]⟩
  · refine ⟨fields 2 reg b.toBits, giveLe 2 d.toNat, ?_, disp16 _ _ _ _ _ (by decide) fun rest => ?_⟩
    · cases b <;> first | rfl | exact absurd rfl h
    · have h0 : (2 : BitVec 2) ≠ 0 := by decide
      have h1 : (2 : BitVec 2) ≠ 1 := by decide
      simp only [decodeMem16, take_half, if_neg h0, if_neg h1, BitVec.ofNat_toNat, BitVec.setWidth_eq,
        Base16.ofBits_toBits h]

theorem takeDisp (d : Word) (rest : List Byte) : takeDisp32 2 (giveLe 4 d.toNat ++ rest) = some (d, 4, rest) := by
  have h0 : (2 : BitVec 2) ≠ 0 := by decide
  have h1 : (2 : BitVec 2) ≠ 1 := by decide
  simp only [takeDisp32, if_neg h0, if_neg h1, take_word, BitVec.ofNat_toNat, BitVec.setWidth_eq]

theorem sibIndex_none (lo : BitVec 3) : sibIndex (fields 0 4 lo) = none := by
  simp only [sibIndex, fields_mid, if_true]

theorem sibIndex_some (sc : BitVec 2) (i : Reg) (lo : BitVec 3) (h : i ≠ .esp) :
    sibIndex (fields sc i.toBits lo) = some (i, sc) := by
  have h4 : i.toBits ≠ 4 := fun e => h ((Reg.toBits_eq i).1.mp e)
  simp only [sibIndex, fields_mid, fields_hi, if_neg h4, Reg.ofBits_toBits]

theorem encodeMem32 (reg : BitVec 3) (base : Option Reg) (ix : Option (Reg × BitVec 2)) (d : Word)
    (h : ∀ i sc, ix = some (i, sc) → i ≠ .esp) :
    ∃ x tl, encodeMem reg (.m32 base ix d) = x :: tl ∧ MemBytes .o32 reg (.m32 base ix d) x tl := by
  have h20 : (2 : BitVec 2) ≠ 0 := by decide
  have h44 : ((4 : BitVec 3) = 4) := rfl
  match base, ix with
  | none, none =>
    refine ⟨_, _, rfl, disp32 _ _ _ _ _ (by decide) fun rest => ?_⟩
    have h54 : (5 : BitVec 3) ≠ 4 := by decide
    simp only [decodeMem32, if_neg h54, and_self, if_true, take_word, BitVec.ofNat_toNat, BitVec.setWidth_eq, imm_giveLe_length]
  | none, some (i, sc) =>
    refine ⟨_, _, rfl, disp32 _ _ _ _ _ (by decide) fun rest => ?_⟩
    simp only [decodeMem32, if_true, List.cons_append, fields_lo, and_self, take_word, BitVec.ofNat_toNat,
      BitVec.setWidth_eq, List.length_cons, imm_giveLe_length, sibIndex_some sc i 5 (h i sc rfl)]
  | some b, none =>
    by_cases hb : b = .esp
    · subst hb
      refine ⟨fields 2 reg 4, fields 0 4 (Reg.toBits .esp) :: giveLe 4 d.toNat, by simp [encodeMem],
        disp32 _ _ _ _ _ (by decide) fun rest => ?_⟩
      simp only [decodeMem32, if_true, List.cons_append, fields_lo, h20, and_false, if_false, takeDisp, sibIndex_none,
        Reg.ofBits_toBits, List.length_cons, imm_giveLe_length]
    · refine ⟨fields 2 reg b.toBits, giveLe 4 d.toNat, by simp [encodeMem, hb],
        disp32 _ _ _ _ _ (by decide) fun rest => ?_⟩
      have h4 : b.toBits ≠ 4 := fun e => hb ((Reg.toBits_eq b).1.mp e)
      simp only [decodeMem32, if_neg h4, h20, and_false, if_false, takeDisp, Reg.ofBits_toBits, imm_giveLe_length]
  | some b, some (i, sc) =>
    refine ⟨_, _, rfl, disp32 _ _ _ _ _ (by decide) fun rest => ?_⟩
    simp only [decodeMem32, if_true, List.cons_append, fields_lo, h20, and_false, if_false, takeDisp,
      sibIndex_some sc i _ (h i sc rfl), Reg.ofBits_toBits, List.length_cons, imm_giveLe_length]

/-- A well-formed memory operand is read back from its encoding. -/
theorem encodeMem_bytes (a : OSz) (reg : BitVec 3) (m : MemOp) (h : m.wf a = true) :
    ∃ b tl, encodeMem reg m = b :: tl ∧ MemBytes a reg m b tl := by
  cases m with
  | m16 b d =>
    have : a = .o16 := by simpa [MemOp.wf] using h
    subst this; exact encodeMem16 reg b d
  | m32 base ix d =>
    cases ix with
    | none =>
      have : a = .o32 := by simpa [MemOp.wf] using h
      subst this; exact encodeMem32 reg base none d (by intro i sc e; cases e)
    | some x =>
      obtain ⟨i, sc⟩ := x
      have hh : a = .o32 ∧ i ≠ .esp := by simpa [MemOp.wf] using h
      obtain ⟨rfl, hi⟩ := hh
      exact encodeMem32 reg base (some (i, sc)) d (by intro i' sc' e; cases e; exact hi)

/-! ### After the opcode -/

/-- LOCK is taken by an entry that accepts it, with a memory operand. -/
def lockOk (p : Pfx) (lk : Bool) (rm : RM) : Prop := p.lock = false ∨ (lk = true ∧ rm.isMem = true)

theorem lockOk.mem {p : Pfx} {lk : Bool} {m : MemOp} (h : lockOk p lk (.mem m)) : lockBad p lk = false := by
  rcases h with h | ⟨h, -⟩ <;> simp [lockBad, h]

theorem lockOk.reg {p : Pfx} {lk : Bool} {r : Reg} (h : lockOk p lk (.reg r)) : lockBad p false = false := by
  rcases h with h | ⟨-, h⟩
  · simp [lockBad, h]
  · cases h

@[simp] theorem judge_false (d : Decoded) : judge false d = d := rfl

/-- A register operand is read from the ModRM byte alone. -/
theorem runOperand_reg (p : Pfx) (n : Nat) (r : Reg) (bs : List Byte) (f : RM → Nat → List Byte → Decoded) :
    runOperand p n 3 r.toBits bs f = f (.reg r) n bs := by simp only [runOperand, if_true, Reg.ofBits_toBits]

/-- A memory operand is read from its encoding. -/
theorem runOperand_mem {p : Pfx} {n : Nat} {reg : BitVec 3} {m : MemOp} {b : Byte} {tl : List Byte}
    (hb : MemBytes p.asz reg m b tl) (bs : List Byte) (f : RM → Nat → List Byte → Decoded) :
    runOperand p n (b.extractLsb' 6 2) (b.extractLsb' 0 3) (tl ++ bs) f = f (.mem m) (n + tl.length) bs := by
  simp only [runOperand, if_neg hb.hi, hb.back]

theorem MemBytes.memory {a : OSz} {reg : BitVec 3} {m : MemOp} {b : Byte} {tl : List Byte} (hb : MemBytes a reg m b tl) :
    (b.extractLsb' 6 2 != 3) = true := by simpa using hb.hi

section
variable {p : Pfx} {n : Nat} {reg : BitVec 3} {sel : BitVec 3 → Bool → BitVec 3 → MEntry} {lk : Bool} (rest : List Byte)

theorem run_modrm_reg (r : Reg) :
    runEntry p n (fields 3 reg r.toBits :: rest) (.modrm sel)
      = runMEntry p (n + 1) 3 r.toBits rest (sel reg false r.toBits) := by
  simp [runEntry, fields_hi, fields_mid, fields_lo]

theorem run_modrm_mem {m : MemOp} {b : Byte} {tl : List Byte} (hb : MemBytes p.asz reg m b tl) :
    runEntry p n (b :: tl ++ rest) (.modrm sel)
      = runMEntry p (n + 1) (b.extractLsb' 6 2) (b.extractLsb' 0 3) (tl ++ rest) (sel reg true (b.extractLsb' 0 3)) := by
  simp only [List.cons_append, runEntry, hb.mid, hb.memory]

theorem run_rm {f : Pfx → RM → Instr} {rm : RM} (hs : ∀ im lo, sel reg im lo = .rm lk f) (hl : lockOk p lk rm)
    (hw : rm.wf p.asz = true) :
    runEntry p n (encodeRM reg rm ++ rest) (.modrm sel) = .ok (f p rm) (n + (encodeRM reg rm).length) := by
  cases rm with
  | reg r =>
    simp only [encodeRM, List.cons_append, List.nil_append, run_modrm_reg, hs, runMEntry, runOperand_reg, bne_self_eq_false,
      Bool.and_false, hl.reg, judge_false, List.length_cons, List.length_nil, Nat.zero_add]
  | mem m =>
    obtain ⟨b, tl, he, hb⟩ := encodeMem_bytes p.asz reg m hw
    simp only [encodeRM, he, run_modrm_mem rest hb, hs, runMEntry, runOperand_mem hb, hb.memory, Bool.and_true, hl.mem,
      judge_false, List.length_cons]
    congr 1; omega

theorem run_rmIb {f : Pfx → RM → Byte → Instr} {rm : RM} {i : Byte} (hs : ∀ im lo, sel reg im lo = .rmIb lk f)
    (hl : lockOk p lk rm) (hw : rm.wf p.asz = true) :
    runEntry p n (cat (encodeRM reg rm) [i] ++ rest) (.modrm sel)
      = .ok (f p rm i) (n + (cat (encodeRM reg rm) [i]).length) := by
  cases rm with
  | reg r =>
    simp only [cat, encodeRM, List.cons_append, List.nil_append, run_modrm_reg, hs, runMEntry, runOperand_reg,
      bne_self_eq_false, Bool.and_false, hl.reg, judge_false, List.length_cons, List.length_nil, Nat.zero_add]
  | mem m =>
    obtain ⟨b, tl, he, hb⟩ := encodeMem_bytes p.asz reg m hw
    simp only [cat, encodeRM, he, List.append_assoc, run_modrm_mem _ hb, hs, runMEntry, runOperand_mem hb, hb.memory,
      Bool.and_true, hl.mem, judge_false]
    simp only [List.cons_append, List.nil_append, List.length_append, List.length_cons, List.length_nil]
    congr 1; omega

theorem run_rmIv {f : Pfx → RM → Word → Instr} {rm : RM} {v : Word} (hs : ∀ im lo, sel reg im lo = .rmIv lk f)
    (hl : lockOk p lk rm) (hw : rm.wf p.asz = true) (hv : fits p.osz v = true) :
    runEntry p n (cat (encodeRM reg rm) (encodeImm p.osz v) ++ rest) (.modrm sel)
      = .ok (f p rm v) (n + (cat (encodeRM reg rm) (encodeImm p.osz v)).length) := by
  cases rm with
  | reg r =>
    simp only [cat, encodeRM, List.cons_append, List.nil_append, run_modrm_reg, hs, runMEntry, runOperand_reg,
      bne_self_eq_false, Bool.and_false, hl.reg, judge_false, List.length_cons, takeLe_imm hv, BitVec.ofNat_toNat,
      BitVec.setWidth_eq, encodeImm_length]
    congr 1; omega
  | mem m =>
    obtain ⟨b, tl, he, hb⟩ := encodeMem_bytes p.asz reg m hw
    simp only [cat, encodeRM, he, List.append_assoc, run_modrm_mem _ hb, hs, runMEntry, runOperand_mem hb, hb.memory,
      Bool.and_true, hl.mem, judge_false, List.length_cons, takeLe_imm hv, BitVec.ofNat_toNat, BitVec.setWidth_eq,
      encodeImm_length, List.length_append]
    congr 1; omega

theorem run_mem {f : Pfx → MemOp → Instr} {m : MemOp} (hs : ∀ lo, sel reg true lo = .mem lk f)
    (hl : p.lock = false ∨ lk = true) (hw : m.wf p.asz = true) :
    runEntry p n (encodeMem reg m ++ rest) (.modrm sel) = .ok (f p m) (n + (encodeMem reg m).length) := by
  obtain ⟨b, tl, he, hb⟩ := encodeMem_bytes p.asz reg m hw
  have hl' : lockBad p lk = false := by rcases hl with h | h <;> simp [lockBad, h]
  simp only [he, run_modrm_mem rest hb, hs, runMEntry, runOperand_mem hb, hl', judge_false, List.length_cons]
  congr 1; omega

theorem run_bare {f : Pfx → Instr} {b : Byte} (hs : sel (b.extractLsb' 3 3) (b.extractLsb' 6 2 != 3) (b.extractLsb' 0 3) = .bare f)
    (hl : p.lock = false) : runEntry p n (b :: rest) (.modrm sel) = .ok (f p) (n + 1) := by
  have : lockBad p false = false := by simp [lockBad, hl]
  simp only [runEntry, hs, runMEntry, this, judge_false]

theorem run_bare_fields {f : Pfx → Instr} {lo : BitVec 3} (hs : sel reg false lo = .bare f) (hl : p.lock = false) :
    runEntry p n (fields 3 reg lo :: rest) (.modrm sel) = .ok (f p) (n + 1) := by
  apply run_bare _ _ hl
  rw [fields_hi, fields_mid, fields_lo]; exact hs

theorem run_plain {f : Pfx → Instr} (hl : p.lock = false) : runEntry p n rest (.plain f) = .ok (f p) n := by
  have : lockBad p false = false := by simp [lockBad, hl]
  simp only [runEntry, this, judge_false]

theorem run_ib {f : Pfx → Byte → Instr} {i : Byte} (hl : p.lock = false) :
    runEntry p n (i :: rest) (.ib f) = .ok (f p i) (n + 1) := by
  have : lockBad p false = false := by simp [lockBad, hl]
  simp only [runEntry, this, judge_false]

theorem run_iw {f : Pfx → Half → Instr} {i : Half} (hl : p.lock = false) :
    runEntry p n (giveLe 2 i.toNat ++ rest) (.iw f) = .ok (f p i) (n + 2) := by
  have : lockBad p false = false := by simp [lockBad, hl]
  simp only [runEntry, this, judge_false, take_half, BitVec.ofNat_toNat, BitVec.setWidth_eq]

theorem run_iv {f : Pfx → Word → Instr} {v : Word} (hl : p.lock = false) (hv : fits p.osz v = true) :
    runEntry p n (encodeImm p.osz v ++ rest) (.iv f) = .ok (f p v) (n + (encodeImm p.osz v).length) := by
  have : lockBad p false = false := by simp [lockBad, hl]
  simp only [runEntry, this, judge_false, takeLe_imm hv, BitVec.ofNat_toNat, BitVec.setWidth_eq,
    encodeImm_length]

theorem run_moffs {f : Pfx → Word → Instr} {v : Word} (hl : p.lock = false) (hv : fits p.asz v = true) :
    runEntry p n (encodeImm p.asz v ++ rest) (.moffs f) = .ok (f p v) (n + (encodeImm p.asz v).length) := by
  have : lockBad p false = false := by simp [lockBad, hl]
  simp only [runEntry, this, judge_false, takeLe_imm hv, BitVec.ofNat_toNat, BitVec.setWidth_eq,
    encodeImm_length]

theorem run_ptr {f : Pfx → Word → Half → Instr} {v : Word} {c : Half} (hl : p.lock = false) (hv : fits p.osz v = true) :
    runEntry p n (cat (encodeImm p.osz v) (giveLe 2 c.toNat) ++ rest) (.ptr f)
      = .ok (f p v c) (n + (cat (encodeImm p.osz v) (giveLe 2 c.toNat)).length) := by
  have : lockBad p false = false := by simp [lockBad, hl]
  simp only [runEntry, this, judge_false, cat, List.append_assoc, takeLe_imm hv, take_half,
    BitVec.ofNat_toNat, BitVec.setWidth_eq, encodeImm_length, List.length_append, imm_giveLe_length, Nat.add_assoc]

end

/-! ### The opcode -/

/-- A byte that is no prefix. -/
abbrev notPrefix (b : Byte) : Prop := b ≠ 0x66 ∧ b ≠ 0x67 ∧ b ≠ 0xF0 ∧ overrideSeg b.toNat = none

theorem decode_one {p : Pfx} {n : Nat} {b : Byte} {bs : List Byte} {e : Entry} {d : Decoded} (hb : b ≠ 0x0F)
    (he : oneByte b.toNat = e) (h : runEntry p (n + 1) bs e = d) : decodeOpcode p n b bs = d := by
  simp only [decodeOpcode, if_neg hb, he, h]

theorem decode_two {p : Pfx} {n : Nat} {b : Byte} {bs : List Byte} {e : Entry} {d : Decoded}
    (he : twoByte b.toNat = e) (h : runEntry p (n + 2) bs e = d) : decodeOpcode p n 0x0F (b :: bs) = d := by
  simp only [decodeOpcode, if_true, he, h]

/-- Two decodings with the same instruction and the same length. -/
theorem Decoded.ok_congr {i j : Instr} {a b : Nat} (hi : i = j) (h : a = b) : Decoded.ok i a = .ok j b := by rw [hi, h]

theorem len_one (n : Nat) (b : Byte) (xs : List Byte) : n + 1 + xs.length = n + (b :: xs).length := by
  simp only [List.length_cons]; omega

theorem len_two (n : Nat) (b c : Byte) (xs : List Byte) : n + 2 + xs.length = n + (b :: c :: xs).length := by
  simp only [List.length_cons]; omega

/-! ### What well-formedness gives -/

theorem noLock_eq {p : Pfx} (h : noLock p = true) : p.lock = false := by simpa [noLock] using h

theorem lockMem_ok {p : Pfx} {rm : RM} (h : lockMem p rm = true) : lockOk p true rm := by
  simpa [lockMem, lockOk] using h

theorem noLock_ok {p : Pfx} {lk : Bool} {rm : RM} (h : noLock p = true) : lockOk p lk rm := .inl (noLock_eq h)

theorem wf_and {a b : Bool} (h : (a && b) = true) : a = true ∧ b = true := Bool.and_eq_true_iff.mp h

/-- The x87 register in the low three bits of a ModRM byte that names no memory (R263). -/
theorem opReg_C0 : ∀ i : BitVec 3, opReg 0xC0 i = fields 3 0 i := by decide
theorem opReg_C8 : ∀ i : BitVec 3, opReg 0xC8 i = fields 3 1 i := by decide
theorem opReg_D0 : ∀ i : BitVec 3, opReg 0xD0 i = fields 3 2 i := by decide
theorem opReg_D8 : ∀ i : BitVec 3, opReg 0xD8 i = fields 3 3 i := by decide
theorem opReg_E0 : ∀ i : BitVec 3, opReg 0xE0 i = fields 3 4 i := by decide
theorem opReg_E8 : ∀ i : BitVec 3, opReg 0xE8 i = fields 3 5 i := by decide

end Sys2Proof
end

