-- ==== Sys2Proof/Laws/Keeps.lean ====
section
/-! SUPPORT. Every operation that changes memory keeps its canonical form (R57, log 1): the caches, the accesses, the page
walk, the placing of an instruction; and memory after RESET has it. -/
namespace Sys2Proof.Machine

open Sys2Proof

theorem Memory.wf_nil : Memory.wf [] = true := rfl

theorem State.reset_mem : State.reset.mem = [] := rfl

/-! ### The caches -/

theorem wf_restoreLine (m : Memory) (l : DLine) (h : m.wf = true) : (restoreLine m l).wf = true := by
  unfold restoreLine
  split
  · exact h
  · exact Memory.wf_writes m _ _ h

theorem wf_restoreLines (ls : List DLine) : ∀ m : Memory, m.wf = true → (ls.foldl restoreLine m).wf = true := by
  induction ls with
  | nil => exact fun _ h => h
  | cons l ls ih => exact fun m h => ih _ (wf_restoreLine m l h)

theorem wf_uncover (p : Platform) (c : Caches) (m : Memory) (l : DLine) (h : m.wf = true) : (uncover p c m l).wf = true := by
  unfold uncover
  split
  · exact wf_restoreLine m l h
  · exact h

theorem wf_uncovers (p : Platform) (c : Caches) (ls : List DLine) : ∀ m : Memory, m.wf = true →
    (ls.foldl (uncover p c) m).wf = true := by
  induction ls with
  | nil => exact fun _ h => h
  | cons l ls ih => exact fun m h => ih _ (wf_uncover p c m l h)

theorem writeBack_mem (line : Nat) (s : State) : (writeBack line s).mem = s.mem := rfl

theorem writeBackIf_mem (s : State) (l : DLine) : (writeBackIf s l).mem = s.mem := by
  unfold writeBackIf
  split
  · exact writeBack_mem _ s
  · rfl

theorem writeBacks_mem (ls : List DLine) : ∀ s : State, (ls.foldl writeBackIf s).mem = s.mem := by
  induction ls with
  | nil => exact fun _ => rfl
  | cons l ls ih => exact fun s => (ih _).trans (writeBackIf_mem s l)

theorem wf_dropLine (line : Nat) (s : State) (h : s.mem.wf = true) : (dropLine line s).mem.wf = true := by
  unfold dropLine
  split
  · exact h
  · exact wf_uncover _ _ _ _ h

theorem wf_placeD (l : DLine) (s : State) (h : s.mem.wf = true) : (placeD l s).mem.wf = true := by
  unfold placeD
  dsimp only
  split
  · exact h
  · split
    · exact wf_uncovers _ _ _ _ h
    · show (List.foldl writeBackIf _ _).mem.wf = true
      rw [writeBacks_mem]
      exact h

theorem wf_fillD (l : DLine) (s : State) (h : s.mem.wf = true) : (fillD l s).mem.wf = true := by
  unfold fillD
  dsimp only
  split
  · exact h
  · exact wf_placeD _ (s.setCache _) h

theorem placeI_mem (l : ILine) (s : State) : (placeI l s).mem = s.mem := by
  unfold placeI
  dsimp only
  split <;> rfl

theorem fillI_mem (l : ILine) (s : State) : (fillI l s).mem = s.mem := by
  unfold fillI
  dsimp only
  split
  · exact placeI_mem _ _
  · split
    · rfl
    · exact placeI_mem _ _

theorem meetSingle_mem (c : Bool) (line : Nat) (s : State) : (meetSingle c line s).mem = s.mem := by
  unfold meetSingle
  split <;> rfl

theorem wf_readLine (n : Nat) (b : Byt) (s : State) (h : s.mem.wf = true) : (readLine n b s).mem.wf = true := by
  unfold readLine
  dsimp only
  split
  · split <;> exact h
  · split
    · exact wf_fillD _ _ h
    · rw [meetSingle_mem]; exact h

theorem wf_fetchLine (b : Byt) (s : State) (h : s.mem.wf = true) : (fetchLine b s).mem.wf = true := by
  unfold fetchLine
  dsimp only
  split
  · split <;> exact h
  · split
    · exact wf_dropLine _ _ h
    · split
      · rw [fillI_mem]; exact wf_dropLine _ _ h
      · rw [meetSingle_mem]; exact wf_dropLine _ _ h

theorem wf_evictLine (line : Nat) (s : State) (h : s.mem.wf = true) : (evictLine line s).mem.wf = true := wf_dropLine line s h

theorem wf_invalidateCaches (s : State) (h : s.mem.wf = true) : (invalidateCaches s).mem.wf = true :=
  wf_restoreLines _ _ h

theorem wf_emptyCaches (s : State) (h : s.mem.wf = true) : (emptyCaches s).mem.wf = true := by
  unfold emptyCaches
  dsimp only
  split
  · exact wf_uncovers _ _ _ _ h
  · exact h

/-! ### What another master does -/

theorem wf_inquireData (line : Nat) (inv : Bool) (s : State) (h : s.mem.wf = true) :
    (inquireData line inv s).mem.wf = true := by
  have same (c d : Bool) (b : BusUnit) (u : State) :
      (if c then u else if d then u.setBiu b else driveSnooped .snooped line u).mem = u.mem := by
    cases c <;> cases d <;> rfl
  unfold inquireData
  split
  · exact h
  · dsimp only
    split
    · refine wf_uncover _ _ _ _ ?_
      rw [same]
      exact h
    · rw [State.setCache_mem, same]
      exact h

theorem inquireCode_mem (line : Nat) (inv : Bool) (s : State) : (inquireCode line inv s).mem = s.mem := by
  unfold inquireCode
  split
  · rfl
  · split <;> rfl

theorem wf_snoopLine (line : Nat) (inv : Bool) (s : State) (h : s.mem.wf = true) : (snoopLine line inv s).mem.wf = true := by
  unfold snoopLine
  split
  · exact h
  · show (inquireCode line _ (inquireData line _ s)).mem.wf = true
    rw [inquireCode_mem]
    exact wf_inquireData _ _ s h

theorem wf_snoopDuring (q : Snoop) (s : State) (h : s.mem.wf = true) : (snoopDuring q s).mem.wf = true := by
  unfold snoopDuring
  dsimp only
  split <;> exact wf_snoopLine _ _ s h

theorem wf_answerFrom (f : Snoop → Bool) (qs : List Snoop) : ∀ (gap : Option Nat) (s : State), s.mem.wf = true →
    (answerFrom f gap qs s).mem.wf = true := by
  induction qs with
  | nil => exact fun _ _ h => h
  | cons q qs ih =>
    intro gap s h
    unfold answerFrom
    split
    · exact ih _ (keepSnoop q s) h
    · split
      · exact ih _ s h
      · exact ih _ (keepSnoop _ (snoopDuring q s)) (wf_snoopDuring q s h)

theorem wf_answerArrived (f : Snoop → Bool) (s : State) (h : s.mem.wf = true) : (answerArrived f s).mem.wf = true := by
  unfold answerArrived
  split
  · exact h
  · exact wf_answerFrom _ _ _ (s.setCache _) h

theorem wf_answerSnoops (s : State) (h : s.mem.wf = true) : (answerSnoops s).mem.wf = true := by
  unfold answerSnoops reportSnoops
  split
  · exact wf_answerArrived _ s h
  · exact wf_answerArrived _ s h

/-! ### FLUSH# -/

theorem flushLine_mem (line : Nat) (s : State) : (flushLine line s).mem = s.mem := by
  have h := writeBack_mem line s
  unfold flushLine
  dsimp only
  split
  · exact h
  · split <;> exact h

theorem wf_endFlush (s : State) (h : s.mem.wf = true) : (endFlush s).mem.wf = true :=
  wf_emptyCaches ((answerArrived _ s).setCache _) (wf_answerArrived _ s h)

theorem wf_copyAll (n : Nat) : ∀ (done : List Nat) (s : State), s.mem.wf = true → (copyAll n done s).mem.wf = true := by
  induction n with
  | zero => exact fun _ _ h => h
  | succ n ih =>
    intro done s h
    unfold copyAll
    dsimp only
    split
    · exact wf_answerArrived _ s h
    · refine ih _ _ ?_
      unfold flushOne
      rw [flushLine_mem]
      exact wf_answerArrived _ s h

theorem wf_flushCaches (s : State) (h : s.mem.wf = true) : (flushCaches s).mem.wf = true := wf_endFlush _ (wf_copyAll _ _ s h)

/-! ### The two maps of SMIACT# -/

theorem wf_foldl (f : Memory → Nat → Memory) (hf : ∀ m k, m.wf = true → (f m k).wf = true) (ks : List Nat) :
    ∀ m : Memory, m.wf = true → (ks.foldl f m).wf = true := by
  induction ks with
  | nil => exact fun _ h => h
  | cons k ks ih => exact fun m h => ih _ (hf m k h)

/-- Both memories keep the canonical form when SMIACT# changes. -/
theorem wf_swapMaps (s : State) (h : s.mem.wf = true) (ho : s.other.wf = true) :
    (swapMaps s).mem.wf = true ∧ (swapMaps s).other.wf = true := by
  unfold swapMaps
  split
  · exact ⟨h, ho⟩
  · refine ⟨wf_foldl _ (fun m k hm => ?_) _ _ h, wf_foldl _ (fun m k hm => Memory.wf_write _ _ _ hm) _ _ ho⟩
    split
    · exact hm
    · exact Memory.wf_write _ _ _ hm

/-! ### Accesses -/

/-- What is done with each unit of an access keeps the form if each part does. -/
theorem wf_eachUnit (u : Nat) {f : Nat → Byt → State → State}
    (hf : ∀ n b (s : State), s.mem.wf = true → (f n b s).mem.wf = true) (bs : List Byt) :
    ∀ (prev : Option Nat) (s : State), s.mem.wf = true → (eachUnit u f prev bs s).mem.wf = true := by
  induction bs with
  | nil => exact fun _ _ h => h
  | cons b bs ih =>
    intro prev s h
    unfold eachUnit
    split
    · exact ih _ _ h
    · exact ih _ _ (hf _ b s h)

theorem wf_touchLines (bs : List Byt) (s : State) (h : s.mem.wf = true) : (touchLines bs s).mem.wf = true :=
  wf_eachUnit _ (fun n b s => wf_readLine n b s) bs none s h

theorem wf_evictLines (bs : List Byt) (s : State) (h : s.mem.wf = true) : (evictLines bs s).mem.wf = true :=
  wf_eachUnit _ (fun _ b s h => wf_evictLine (lineOf b.pa) s h) bs none s h

theorem wf_lockLines (bs : List Byt) (s : State) (h : s.mem.wf = true) : (lockLines bs s).mem.wf = true :=
  wf_eachUnit _ (f := lockedRead _) (fun _ _ _ h => h) bs none _ (wf_evictLines bs s h)

theorem wf_storeByte (b : Byt) (v : Byte) (s : State) (h : s.mem.wf = true) : (storeByte b v s).mem.wf = true := by
  obtain ⟨c, m, e, -, hm, -⟩ := storeByte_eq b v s
  rw [e]
  rcases hm with rfl | rfl
  · exact h
  · exact Memory.wf_write _ _ _ h

theorem wf_storeBytes (u : Nat) (lock scyc : Bool) (l : List (Byt × Byte)) : ∀ (prev : Option Nat) (s : State),
    s.mem.wf = true → (storeBytes u lock scyc prev l s).mem.wf = true := by
  induction l with
  | nil => exact fun _ _ h => h
  | cons x t ih =>
    intro prev s h
    obtain ⟨b, v⟩ := x
    unfold storeBytes
    refine ih _ _ (wf_storeByte b v _ ?_)
    split
    · exact h
    · obtain ⟨c, e, -⟩ := writeLine_cache lock scyc (v :: (t.takeWhile fun x => x.1.pa / u == b.pa / u).map (·.2)) b s
      rw [e]
      exact h

/-! ### The page walk -/

theorem wf_writeEntry (a : Nat) (attr : Bool × Bool) (v : Word) (s : State) (h : s.mem.wf = true) :
    (writeEntry a attr v s).mem.wf = true := by
  unfold writeEntry
  dsimp only
  split
  · exact wf_evictLine _ s h
  · exact wf_physWrites _ _ _ (wf_evictLine _ s h)

theorem wf_updateEntry (a : Nat) (attr : Bool × Bool) (old new : Word) (s : State) (h : s.mem.wf = true) :
    (updateEntry a attr old new s).mem.wf = true := by
  unfold updateEntry
  split
  · exact h
  · exact wf_writeEntry a attr new s h

theorem wf_snoopEntry (a : Nat) (attr : Bool × Bool) (s : State) (h : s.mem.wf = true) :
    (snoopEntry a attr s).mem.wf = true := by
  unfold snoopEntry
  dsimp only
  split
  · exact wf_dropLine _ s h
  · exact h

theorem wf_walkTable (la : Word) (a : Access) (pde : Word) (q : Bool) (s : State) (h : s.mem.wf = true) :
    (walkTable la a pde q s).st.mem.wf = true := by
  unfold walkTable
  dsimp only
  split
  · exact wf_snoopEntry _ _ s h
  · split
    · exact wf_snoopEntry _ _ s h
    · exact wf_updateEntry _ _ _ _ _ (wf_snoopEntry _ _ s h)

theorem wf_walkBig (la : Word) (a : Access) (pde : Word) (q : Bool) (s : State) (h : s.mem.wf = true) :
    (walkBig la a pde q s).st.mem.wf = true := by
  unfold walkBig
  dsimp only
  split
  · exact h
  · split
    · exact h
    · exact wf_updateEntry _ _ _ _ _ h

theorem wf_walk (la : Word) (a : Access) (s : State) (h : s.mem.wf = true) : (walk la a s).st.mem.wf = true := by
  unfold walk
  dsimp only
  split
  · exact wf_snoopEntry _ _ s h
  · split
    · exact wf_walkBig _ _ _ _ _ (wf_snoopEntry _ _ s h)
    · exact wf_walkTable _ _ _ _ _ (wf_updateEntry _ _ _ _ _ (wf_snoopEntry _ _ s h))

/-! ### Placing an instruction -/

theorem wf_placeByte (s : State) (off : Word) (b : Byte) (h : s.mem.wf = true) : (s.placeByte off b).mem.wf = true := by
  unfold State.placeByte
  split
  · exact h
  · exact Memory.wf_write _ _ _ (wf_dropLine _ s h)

theorem wf_withFetchWord (s : State) (nbits w : Nat) (h : s.mem.wf = true) : (s.withFetchWord nbits w).mem.wf = true := by
  suffices H : ∀ (bs : List Byte) (s : State) (off : Word), s.mem.wf = true → (s.placeBytes off bs).mem.wf = true from H _ _ _ h
  intro bs
  induction bs with
  | nil => exact fun _ _ h => h
  | cons b bs ih => exact fun s off h => ih _ _ (wf_placeByte s off b h)

end Sys2Proof.Machine
end

