-- ==== Sys2Proof/Laws/Ops.lean ====
section
/-! SUPPORT. What the shared operations do in a plain state: the stack, near transfers, system reads, descriptors, and the
delivery of an event through the vector table. -/
namespace Sys2Proof.Machine

open Sys2Proof

/-- What may be written may be read (R112). -/
theorem may_read_of_write {s : State} {seg : Seg} {off : Word} {n al : Nat} (h : s.may seg off n al true = true) :
    s.may seg off n al false = true := by
  simp only [State.may, Bool.and_eq_true] at h ⊢
  refine ⟨?_, h.2⟩
  have h1 := h.1
  unfold State.inSeg at h1 ⊢
  cases hm : s.mode <;> simp only [hm] at h1 ⊢
  · exact h1
  · simp only [Bool.and_eq_true, ↓reduceIte, Bool.false_eq_true] at h1 ⊢
    refine ⟨⟨h1.1.1, ?_⟩, h1.2⟩
    have := h1.1.2
    simp only [SegAttr.writable, Bool.and_eq_true] at this
    simp [SegAttr.readable, this.1]
  · exact h1

/-! ### The stack -/

/-- Reading the stack gives the bytes above its top. -/
theorem stackAt_flat {s : State} {i n : Nat} (hf : s.flat = true) (h : s.may .ss (s.stackOff i) n n false = true) :
    ∃ t, Quiet s t ∧ stackAt i n s = .ok (ofLe 32 (s.bytes .ss (s.stackOff i) n)) t := by
  obtain ⟨t, hq, ht⟩ := popBytes_flat hf h
  exact ⟨t, hq, M.bind_ok ht⟩

@[simp] theorem moveSp_run (k : Nat) (s : State) : moveSp k s = .ok () (s.putReg .esp (s.popped k)) := rfl

theorem Quiet.popped {s t : State} (h : Quiet s t) (k : Nat) : t.popped k = s.popped k := by
  obtain ⟨c, d, rfl, _⟩ := h
  rfl

/-- A pop reads the top of the stack and moves the stack pointer above it. -/
theorem popv_flat {s : State} {o : OSz} (hf : s.flat = true)
    (h : s.may .ss (s.stackOff 0) o.bytes o.bytes false = true) :
    ∃ t, Quiet s t ∧ popv o s = .ok (ofLe 32 (s.bytes .ss (s.stackOff 0) o.bytes))
      (t.putReg .esp (s.popped o.bytes)) := by
  obtain ⟨t, hq, ht⟩ := stackAt_flat hf h
  refine ⟨t, hq, ?_⟩
  unfold popv
  rw [M.bind_ok ht, ← hq.popped]
  rfl

/-- Memory after one item is pushed. -/
def State.pushMem (s : State) (m : Memory) (esp : Word) (it : PushItem) : Memory :=
  writeAt m ((s.plainBytes .ss (s.pushOff esp it.n) it.n).zip (toLe it.n it.v))

/-- Memory after several items are pushed. -/
def State.pushMems (s : State) : Memory → Word → List PushItem → Memory
  | m, _, [] => m
  | m, esp, it :: its =>
    State.pushMems s (s.pushMem m esp it) (spAdd s.bigStack esp (0 - BitVec.ofNat 32 it.n)) its

/-- The stack pointer after several items are pushed. -/
def State.pushSp (s : State) : Word → List PushItem → Word
  | esp, [] => esp
  | esp, it :: its => State.pushSp s (spAdd s.bigStack esp (0 - BitVec.ofNat 32 it.n)) its

/-- Every item may be pushed. -/
def State.mayPush (s : State) : Word → List PushItem → Bool
  | _, [] => true
  | esp, it :: its =>
    s.may .ss (s.pushOff esp it.n) it.n it.n true
      && State.mayPush s (spAdd s.bigStack esp (0 - BitVec.ofNat 32 it.n)) its

/-- The opened writes of several pushes. -/
def State.pushOpen (s : State) : Word → List PushItem → List (List Byt × List Byte)
  | _, [] => []
  | esp, it :: its =>
    (s.plainBytes .ss (s.pushOff esp it.n) it.n, toLe it.n it.v)
      :: State.pushOpen s (spAdd s.bigStack esp (0 - BitVec.ofNat 32 it.n)) its

theorem openPushes_flat {s : State} (hf : s.flat = true) (its : List PushItem) : ∀ (esp : Word),
    s.mayPush esp its = true → openPushes s.bigStack esp its s = .ok (s.pushOpen esp its, s.pushSp esp its) s := by
  induction its with
  | nil => intro esp _; rfl
  | cons it its ih =>
    intro esp h
    simp only [State.mayPush, Bool.and_eq_true] at h
    unfold openPushes
    dsimp only
    refine (M.bind_ok (openAs_flat .push (by decide) hf h.1)).trans ((M.bind_ok (ih _ h.2)).trans rfl)

theorem pokeAll_eq (s : State) (its : List PushItem) : ∀ (esp : Word) (t : State), ramOnly t.plat = true →
    ∃ c, pokeAll (s.pushOpen esp its) t = .ok () ((t.setMem (s.pushMems t.mem esp its)).setCache c)
      ∧ c.foreign = t.cache.foreign := by
  induction its with
  | nil => intro esp t _; exact ⟨t.cache, rfl, rfl⟩
  | cons it its ih =>
    intro esp t hr
    obtain ⟨c1, e1, f1⟩ := poke_eq (s.plainBytes .ss (s.pushOff esp it.n) it.n) (toLe it.n it.v) hr
    obtain ⟨c2, e2, f2⟩ := ih (spAdd s.bigStack esp (0 - BitVec.ofNat 32 it.n))
      ((t.setMem (s.pushMem t.mem esp it)).setCache c1) hr
    refine ⟨c2, ?_, f2.trans f1⟩
    unfold State.pushOpen pokeAll
    exact (M.bind_ok e1).trans e2

/-- Several pushes: their bytes go to memory, the stack pointer below them, and only the caches are disturbed besides. -/
theorem pushItems_flat {s : State} {its : List PushItem} (hf : s.flat = true) (h : s.mayPush s.gpr.esp its = true) :
    ∃ c, c.foreign = false ∧ pushItems its s = .ok ()
      (((s.setMem (s.pushMems s.mem s.gpr.esp its)).setCache c).putReg .esp (s.pushSp s.gpr.esp its)) := by
  obtain ⟨c, e, f⟩ := pokeAll_eq s its s.gpr.esp s (State.flat_ram hf)
  refine ⟨c, f.trans (State.flat_foreign hf), ?_⟩
  unfold pushItems
  rw [M.get_bind, M.bind_ok (openPushes_flat hf its s.gpr.esp h)]
  unfold commitPushes
  rw [M.bind_ok e]
  rfl

/-! ### Near transfers -/

theorem jumpNear_ok {o : OSz} {t : Word} {s : State} (h : s.targetOk (truncTarget o t) = true) :
    jumpNear o t s = .ok () (goto (truncTarget o t) s) := by
  unfold jumpNear
  rw [M.get_bind, h]
  rfl

theorem jumpNear_fault {o : OSz} {t : Word} {s : State} (h : s.targetOk (truncTarget o t) = false) :
    jumpNear o t s = .error (.exc (Exc.fault vGP (some 0))) s := by
  unfold jumpNear
  rw [M.get_bind, h]
  rfl

/-! ### System reads -/

theorem openSys_off {s : State} (la : Word) (n : Nat) (w : Bool) (h : s.pg = false) :
    openSys la n w s = .ok ((List.range n).map fun k => s.byt (s.maskA20 (la + BitVec.ofNat 32 k))) s := by
  unfold openSys
  rw [M.get_bind, spanBytes_off _ _ s h ?_ n 0 none (by simp)]
  · simp
  · intro i hi
    have e : la + BitVec.ofNat 32 (i + 1) = la + BitVec.ofNat 32 i + 1 := by
      rw [BitVec.ofNat_add, BitVec.add_assoc]
      rfl
    rw [e] at hi ⊢
    exact maskA20_succ s _ hi

/-- A system read gives the bytes of the structure. -/
theorem sysRead_flat {s : State} {la : Word} {n : Nat} (hf : s.flat = true) :
    ∃ t, Quiet s t ∧ sysRead la n s = .ok (s.sysBytes la n) t := by
  obtain ⟨t, hq, ht⟩ := peek_quiet ((List.range n).map fun k => s.byt (s.maskA20 (la + BitVec.ofNat 32 k)))
    (State.flat_foreign hf)
  refine ⟨t, hq, ?_⟩
  unfold sysRead
  rw [M.bind_ok (openSys_off la n false (State.flat_pg hf)), ht]
  simp [State.bytesAt, State.sysBytes, State.sysAddr, State.byt, Function.comp_def]

theorem sysVal_flat {s : State} {w : Nat} {la : Word} {n : Nat} (hf : s.flat = true) :
    ∃ t, Quiet s t ∧ sysVal w la n s = .ok (ofLe w (s.sysBytes la n)) t := by
  obtain ⟨t, hq, ht⟩ := sysRead_flat (la := la) (n := n) hf
  exact ⟨t, hq, M.bind_ok ht⟩

/-- A descriptor or gate is read as its two halves, and is its eight bytes. -/
theorem sysDesc_flat {s : State} {la : Word} (hf : s.flat = true) :
    ∃ t, Quiet s t ∧ sysDesc la s = .ok (ofLe 64 (s.sysBytes la 8)) t := by
  generalize hb : ((List.range 8).map fun k => s.byt (s.maskA20 (la + BitVec.ofNat 32 k))) = bs
  obtain ⟨t, hq, ht⟩ := peek_quiet (bs.take 4) (State.flat_foreign hf)
  obtain ⟨u, hr, hu⟩ := peek_quiet (bs.drop 4) hq.foreign
  refine ⟨u, hq.trans hr, ?_⟩
  unfold sysDesc
  rw [M.bind_ok (openSys_off la 8 false (State.flat_pg hf)), hb, M.bind_ok ht, M.bind_ok hu, M.pure_run]
  have e : s.bytesAt (bs.take 4) ++ t.bytesAt (bs.drop 4) = s.bytesAt bs := by
    simp only [State.bytesAt, hq.mem, ← List.map_append, List.take_append_drop]
  rw [e, ← hb]
  simp [State.bytesAt, State.sysBytes, State.sysAddr, State.byt, Function.comp_def]

/-- A locked update of an opened doubleword writes its four bytes back with the second one changed. -/
theorem lockedUpdate_flat (bs : List Byt) (f : Byte → Byte) {s : State} (hf : s.flat = true) :
    ∃ t, Quiet s t ∧ ∃ c, c.foreign = false ∧
      lockedUpdate bs f s = .ok () ((t.setMem (writeAt s.mem (bs.zip ((s.bytesAt bs).modify 1 f)))).setCache c) := by
  obtain ⟨t, hq, ht⟩ := peekAs_quiet true bs (State.flat_foreign hf)
  obtain ⟨c, e, hc⟩ := pokeAs_eq true bs ((s.bytesAt bs).modify 1 f) (s := t) (by rw [hq.plat]; exact State.flat_ram hf)
  refine ⟨t, hq, c, hc.trans hq.foreign, ?_⟩
  unfold lockedUpdate
  rw [M.bind_ok (m := peekLocked bs) ht, e, hq.mem]

/-- A descriptor inside its table is read. -/
theorem readDesc_flat {s : State} {sel : Half} {v : Byte} {code : Half} {la : Word} (hf : s.flat = true)
    (h : s.descAddr sel = some la) :
    ∃ t, Quiet s t ∧ readDesc sel v code s = .ok { la := la, q := ofLe 64 (s.sysBytes la 8) } t := by
  obtain ⟨t, hq, ht⟩ := sysDesc_flat (la := la) hf
  refine ⟨t, hq, ?_⟩
  unfold readDesc
  rw [M.get_bind]
  simp only [h]
  rw [M.bind_ok ht]
  rfl

theorem Quiet.flat {s t : State} (h : Quiet s t) (hf : s.flat = true) : t.flat = true := by
  obtain ⟨c, d, rfl, hc⟩ := h
  simp only [State.flat, Bool.and_eq_true] at hf ⊢
  exact ⟨⟨⟨hf.1.1.1, by simp [hc]⟩, hf.1.2⟩, hf.2⟩

end Sys2Proof.Machine
end

