-- ==== Sys2Proof/Laws/PerInstr.lean ====
section
/-! SUPPORT. Each instruction's opcode and operands are read back as that instruction (R263 to R275): the part of the round
trip of encoder and decoder that differs from instruction to instruction. -/
set_option Elab.async false

namespace Sys2Proof.Laws.Encoding

open Sys2Proof

/-- The encoding of a well-formed instruction, but for its prefix bytes, begins with no prefix byte and decodes to that
instruction, whatever follows it; the length counts its bytes. -/
def Statement (i : Instr) : Prop :=
  i.wf = true → ∀ (n : Nat) (rest : List Byte), ∃ b bs, encodeBody i ++ rest = b :: bs ∧ notPrefix b ∧
    decodeOpcode i.pfx n b bs = .ok i (n + (encodeBody i).length)

theorem fabs (p : Pfx) : Statement (.fabs p) := by
  intro hl n rest
  exact ⟨_, _, rfl, by decide, decode_one (by decide) rfl ((run_bare rest rfl (noLock_eq hl)).trans rfl)⟩

theorem fchs (p : Pfx) : Statement (.fchs p) := by
  intro hl n rest
  exact ⟨_, _, rfl, by decide, decode_one (by decide) rfl ((run_bare rest rfl (noLock_eq hl)).trans rfl)⟩

theorem fcompp (p : Pfx) : Statement (.fcompp p) := by
  intro hl n rest
  exact ⟨_, _, rfl, by decide, decode_one (by decide) rfl ((run_bare rest rfl (noLock_eq hl)).trans rfl)⟩

theorem fdecstp (p : Pfx) : Statement (.fdecstp p) := by
  intro hl n rest
  exact ⟨_, _, rfl, by decide, decode_one (by decide) rfl ((run_bare rest rfl (noLock_eq hl)).trans rfl)⟩

theorem fnop (p : Pfx) : Statement (.fnop p) := by
  intro hl n rest
  exact ⟨_, _, rfl, by decide, decode_one (by decide) rfl ((run_bare rest rfl (noLock_eq hl)).trans rfl)⟩

theorem frndint (p : Pfx) : Statement (.frndint p) := by
  intro hl n rest
  exact ⟨_, _, rfl, by decide, decode_one (by decide) rfl ((run_bare rest rfl (noLock_eq hl)).trans rfl)⟩

theorem fscale (p : Pfx) : Statement (.fscale p) := by
  intro hl n rest
  exact ⟨_, _, rfl, by decide, decode_one (by decide) rfl ((run_bare rest rfl (noLock_eq hl)).trans rfl)⟩

theorem ftst (p : Pfx) : Statement (.ftst p) := by
  intro hl n rest
  exact ⟨_, _, rfl, by decide, decode_one (by decide) rfl ((run_bare rest rfl (noLock_eq hl)).trans rfl)⟩

theorem fucompp (p : Pfx) : Statement (.fucompp p) := by
  intro hl n rest
  exact ⟨_, _, rfl, by decide, decode_one (by decide) rfl ((run_bare rest rfl (noLock_eq hl)).trans rfl)⟩

theorem fxam (p : Pfx) : Statement (.fxam p) := by
  intro hl n rest
  exact ⟨_, _, rfl, by decide, decode_one (by decide) rfl ((run_bare rest rfl (noLock_eq hl)).trans rfl)⟩

theorem fxtract (p : Pfx) : Statement (.fxtract p) := by
  intro hl n rest
  exact ⟨_, _, rfl, by decide, decode_one (by decide) rfl ((run_bare rest rfl (noLock_eq hl)).trans rfl)⟩

theorem faddStSti (p : Pfx) (i : BitVec 3) : Statement (.faddStSti p i) := by
  intro hl n rest
  have e : encodeBody (.faddStSti p i) = 0xD8 :: fields 3 0 i :: [] := by rw [← opReg_C0]; rfl
  rw [e]
  exact ⟨_, _, rfl, by decide, decode_one (by decide) rfl ((run_bare_fields rest rfl (noLock_eq hl)).trans rfl)⟩

theorem faddStiSt (p : Pfx) (i : BitVec 3) : Statement (.faddStiSt p i) := by
  intro hl n rest
  have e : encodeBody (.faddStiSt p i) = 0xDC :: fields 3 0 i :: [] := by rw [← opReg_C0]; rfl
  rw [e]
  exact ⟨_, _, rfl, by decide, decode_one (by decide) rfl ((run_bare_fields rest rfl (noLock_eq hl)).trans rfl)⟩

theorem faddpStiSt (p : Pfx) (i : BitVec 3) : Statement (.faddpStiSt p i) := by
  intro hl n rest
  have e : encodeBody (.faddpStiSt p i) = 0xDE :: fields 3 0 i :: [] := by rw [← opReg_C0]; rfl
  rw [e]
  exact ⟨_, _, rfl, by decide, decode_one (by decide) rfl ((run_bare_fields rest rfl (noLock_eq hl)).trans rfl)⟩

theorem fcomSti (p : Pfx) (i : BitVec 3) : Statement (.fcomSti p i) := by
  intro hl n rest
  have e : encodeBody (.fcomSti p i) = 0xD8 :: fields 3 2 i :: [] := by rw [← opReg_D0]; rfl
  rw [e]
  exact ⟨_, _, rfl, by decide, decode_one (by decide) rfl ((run_bare_fields rest rfl (noLock_eq hl)).trans rfl)⟩

theorem fcompSti (p : Pfx) (i : BitVec 3) : Statement (.fcompSti p i) := by
  intro hl n rest
  have e : encodeBody (.fcompSti p i) = 0xD8 :: fields 3 3 i :: [] := by rw [← opReg_D8]; rfl
  rw [e]
  exact ⟨_, _, rfl, by decide, decode_one (by decide) rfl ((run_bare_fields rest rfl (noLock_eq hl)).trans rfl)⟩

theorem fldSti (p : Pfx) (i : BitVec 3) : Statement (.fldSti p i) := by
  intro hl n rest
  have e : encodeBody (.fldSti p i) = 0xD9 :: fields 3 0 i :: [] := by rw [← opReg_C0]; rfl
  rw [e]
  exact ⟨_, _, rfl, by decide, decode_one (by decide) rfl ((run_bare_fields rest rfl (noLock_eq hl)).trans rfl)⟩

theorem fmulStSti (p : Pfx) (i : BitVec 3) : Statement (.fmulStSti p i) := by
  intro hl n rest
  have e : encodeBody (.fmulStSti p i) = 0xD8 :: fields 3 1 i :: [] := by rw [← opReg_C8]; rfl
  rw [e]
  exact ⟨_, _, rfl, by decide, decode_one (by decide) rfl ((run_bare_fields rest rfl (noLock_eq hl)).trans rfl)⟩

theorem fmulStiSt (p : Pfx) (i : BitVec 3) : Statement (.fmulStiSt p i) := by
  intro hl n rest
  have e : encodeBody (.fmulStiSt p i) = 0xDC :: fields 3 1 i :: [] := by rw [← opReg_C8]; rfl
  rw [e]
  exact ⟨_, _, rfl, by decide, decode_one (by decide) rfl ((run_bare_fields rest rfl (noLock_eq hl)).trans rfl)⟩

theorem fmulpStiSt (p : Pfx) (i : BitVec 3) : Statement (.fmulpStiSt p i) := by
  intro hl n rest
  have e : encodeBody (.fmulpStiSt p i) = 0xDE :: fields 3 1 i :: [] := by rw [← opReg_C8]; rfl
  rw [e]
  exact ⟨_, _, rfl, by decide, decode_one (by decide) rfl ((run_bare_fields rest rfl (noLock_eq hl)).trans rfl)⟩

theorem fstSti (p : Pfx) (i : BitVec 3) : Statement (.fstSti p i) := by
  intro hl n rest
  have e : encodeBody (.fstSti p i) = 0xDD :: fields 3 2 i :: [] := by rw [← opReg_D0]; rfl
  rw [e]
  exact ⟨_, _, rfl, by decide, decode_one (by decide) rfl ((run_bare_fields rest rfl (noLock_eq hl)).trans rfl)⟩

theorem fstpSti (p : Pfx) (i : BitVec 3) : Statement (.fstpSti p i) := by
  intro hl n rest
  have e : encodeBody (.fstpSti p i) = 0xDD :: fields 3 3 i :: [] := by rw [← opReg_D8]; rfl
  rw [e]
  exact ⟨_, _, rfl, by decide, decode_one (by decide) rfl ((run_bare_fields rest rfl (noLock_eq hl)).trans rfl)⟩

theorem fsubStSti (p : Pfx) (i : BitVec 3) : Statement (.fsubStSti p i) := by
  intro hl n rest
  have e : encodeBody (.fsubStSti p i) = 0xD8 :: fields 3 4 i :: [] := by rw [← opReg_E0]; rfl
  rw [e]
  exact ⟨_, _, rfl, by decide, decode_one (by decide) rfl ((run_bare_fields rest rfl (noLock_eq hl)).trans rfl)⟩

theorem fsubStiSt (p : Pfx) (i : BitVec 3) : Statement (.fsubStiSt p i) := by
  intro hl n rest
  have e : encodeBody (.fsubStiSt p i) = 0xDC :: fields 3 5 i :: [] := by rw [← opReg_E8]; rfl
  rw [e]
  exact ⟨_, _, rfl, by decide, decode_one (by decide) rfl ((run_bare_fields rest rfl (noLock_eq hl)).trans rfl)⟩

theorem fsubpStiSt (p : Pfx) (i : BitVec 3) : Statement (.fsubpStiSt p i) := by
  intro hl n rest
  have e : encodeBody (.fsubpStiSt p i) = 0xDE :: fields 3 5 i :: [] := by rw [← opReg_E8]; rfl
  rw [e]
  exact ⟨_, _, rfl, by decide, decode_one (by decide) rfl ((run_bare_fields rest rfl (noLock_eq hl)).trans rfl)⟩

theorem fsubrStSti (p : Pfx) (i : BitVec 3) : Statement (.fsubrStSti p i) := by
  intro hl n rest
  have e : encodeBody (.fsubrStSti p i) = 0xD8 :: fields 3 5 i :: [] := by rw [← opReg_E8]; rfl
  rw [e]
  exact ⟨_, _, rfl, by decide, decode_one (by decide) rfl ((run_bare_fields rest rfl (noLock_eq hl)).trans rfl)⟩

theorem fsubrStiSt (p : Pfx) (i : BitVec 3) : Statement (.fsubrStiSt p i) := by
  intro hl n rest
  have e : encodeBody (.fsubrStiSt p i) = 0xDC :: fields 3 4 i :: [] := by rw [← opReg_E0]; rfl
  rw [e]
  exact ⟨_, _, rfl, by decide, decode_one (by decide) rfl ((run_bare_fields rest rfl (noLock_eq hl)).trans rfl)⟩

theorem fsubrpStiSt (p : Pfx) (i : BitVec 3) : Statement (.fsubrpStiSt p i) := by
  intro hl n rest
  have e : encodeBody (.fsubrpStiSt p i) = 0xDE :: fields 3 4 i :: [] := by rw [← opReg_E0]; rfl
  rw [e]
  exact ⟨_, _, rfl, by decide, decode_one (by decide) rfl ((run_bare_fields rest rfl (noLock_eq hl)).trans rfl)⟩

theorem fucomSti (p : Pfx) (i : BitVec 3) : Statement (.fucomSti p i) := by
  intro hl n rest
  have e : encodeBody (.fucomSti p i) = 0xDD :: fields 3 4 i :: [] := by rw [← opReg_E0]; rfl
  rw [e]
  exact ⟨_, _, rfl, by decide, decode_one (by decide) rfl ((run_bare_fields rest rfl (noLock_eq hl)).trans rfl)⟩

theorem fucompSti (p : Pfx) (i : BitVec 3) : Statement (.fucompSti p i) := by
  intro hl n rest
  have e : encodeBody (.fucompSti p i) = 0xDD :: fields 3 5 i :: [] := by rw [← opReg_E8]; rfl
  rw [e]
  exact ⟨_, _, rfl, by decide, decode_one (by decide) rfl ((run_bare_fields rest rfl (noLock_eq hl)).trans rfl)⟩

theorem fxchSti (p : Pfx) (i : BitVec 3) : Statement (.fxchSti p i) := by
  intro hl n rest
  have e : encodeBody (.fxchSti p i) = 0xD9 :: fields 3 1 i :: [] := by rw [← opReg_C8]; rfl
  rw [e]
  exact ⟨_, _, rfl, by decide, decode_one (by decide) rfl ((run_bare_fields rest rfl (noLock_eq hl)).trans rfl)⟩

theorem addEbIb (p : Pfx) (rm : RM) (imm : Byte) : Statement (.addEbIb p rm imm) := by
  intro h n rest
  obtain ⟨hl, hw⟩ := wf_and h
  exact ⟨_, _, rfl, by decide, decode_one (by decide) rfl ((run_rmIb rest (fun _ _ => rfl) (lockMem_ok hl) hw).trans (Decoded.ok_congr rfl (len_one ..)))⟩

theorem addEvIv (p : Pfx) (rm : RM) (imm : Word) : Statement (.addEvIv p rm imm) := by
  intro h n rest
  obtain ⟨h, hv⟩ := wf_and h
  obtain ⟨hl, hw⟩ := wf_and h
  exact ⟨_, _, rfl, by decide, decode_one (by decide) rfl ((run_rmIv rest (fun _ _ => rfl) (lockMem_ok hl) hw hv).trans (Decoded.ok_congr rfl (len_one ..)))⟩

theorem addEvIbs (p : Pfx) (rm : RM) (imm : Byte) : Statement (.addEvIbs p rm imm) := by
  intro h n rest
  obtain ⟨hl, hw⟩ := wf_and h
  exact ⟨_, _, rfl, by decide, decode_one (by decide) rfl ((run_rmIb rest (fun _ _ => rfl) (lockMem_ok hl) hw).trans (Decoded.ok_congr rfl (len_one ..)))⟩

theorem orEbIb (p : Pfx) (rm : RM) (imm : Byte) : Statement (.orEbIb p rm imm) := by
  intro h n rest
  obtain ⟨hl, hw⟩ := wf_and h
  exact ⟨_, _, rfl, by decide, decode_one (by decide) rfl ((run_rmIb rest (fun _ _ => rfl) (lockMem_ok hl) hw).trans (Decoded.ok_congr rfl (len_one ..)))⟩

theorem orEvIv (p : Pfx) (rm : RM) (imm : Word) : Statement (.orEvIv p rm imm) := by
  intro h n rest
  obtain ⟨h, hv⟩ := wf_and h
  obtain ⟨hl, hw⟩ := wf_and h
  exact ⟨_, _, rfl, by decide, decode_one (by decide) rfl ((run_rmIv rest (fun _ _ => rfl) (lockMem_ok hl) hw hv).trans (Decoded.ok_congr rfl (len_one ..)))⟩

theorem orEvIbs (p : Pfx) (rm : RM) (imm : Byte) : Statement (.orEvIbs p rm imm) := by
  intro h n rest
  obtain ⟨hl, hw⟩ := wf_and h
  exact ⟨_, _, rfl, by decide, decode_one (by decide) rfl ((run_rmIb rest (fun _ _ => rfl) (lockMem_ok hl) hw).trans (Decoded.ok_congr rfl (len_one ..)))⟩

theorem adcEbIb (p : Pfx) (rm : RM) (imm : Byte) : Statement (.adcEbIb p rm imm) := by
  intro h n rest
  obtain ⟨hl, hw⟩ := wf_and h
  exact ⟨_, _, rfl, by decide, decode_one (by decide) rfl ((run_rmIb rest (fun _ _ => rfl) (lockMem_ok hl) hw).trans (Decoded.ok_congr rfl (len_one ..)))⟩

theorem adcEvIv (p : Pfx) (rm : RM) (imm : Word) : Statement (.adcEvIv p rm imm) := by
  intro h n rest
  obtain ⟨h, hv⟩ := wf_and h
  obtain ⟨hl, hw⟩ := wf_and h
  exact ⟨_, _, rfl, by decide, decode_one (by decide) rfl ((run_rmIv rest (fun _ _ => rfl) (lockMem_ok hl) hw hv).trans (Decoded.ok_congr rfl (len_one ..)))⟩

theorem adcEvIbs (p : Pfx) (rm : RM) (imm : Byte) : Statement (.adcEvIbs p rm imm) := by
  intro h n rest
  obtain ⟨hl, hw⟩ := wf_and h
  exact ⟨_, _, rfl, by decide, decode_one (by decide) rfl ((run_rmIb rest (fun _ _ => rfl) (lockMem_ok hl) hw).trans (Decoded.ok_congr rfl (len_one ..)))⟩

theorem sbbEbIb (p : Pfx) (rm : RM) (imm : Byte) : Statement (.sbbEbIb p rm imm) := by
  intro h n rest
  obtain ⟨hl, hw⟩ := wf_and h
  exact ⟨_, _, rfl, by decide, decode_one (by decide) rfl ((run_rmIb rest (fun _ _ => rfl) (lockMem_ok hl) hw).trans (Decoded.ok_congr rfl (len_one ..)))⟩

theorem sbbEvIv (p : Pfx) (rm : RM) (imm : Word) : Statement (.sbbEvIv p rm imm) := by
  intro h n rest
  obtain ⟨h, hv⟩ := wf_and h
  obtain ⟨hl, hw⟩ := wf_and h
  exact ⟨_, _, rfl, by decide, decode_one (by decide) rfl ((run_rmIv rest (fun _ _ => rfl) (lockMem_ok hl) hw hv).trans (Decoded.ok_congr rfl (len_one ..)))⟩

theorem sbbEvIbs (p : Pfx) (rm : RM) (imm : Byte) : Statement (.sbbEvIbs p rm imm) := by
  intro h n rest
  obtain ⟨hl, hw⟩ := wf_and h
  exact ⟨_, _, rfl, by decide, decode_one (by decide) rfl ((run_rmIb rest (fun _ _ => rfl) (lockMem_ok hl) hw).trans (Decoded.ok_congr rfl (len_one ..)))⟩

theorem andEbIb (p : Pfx) (rm : RM) (imm : Byte) : Statement (.andEbIb p rm imm) := by
  intro h n rest
  obtain ⟨hl, hw⟩ := wf_and h
  exact ⟨_, _, rfl, by decide, decode_one (by decide) rfl ((run_rmIb rest (fun _ _ => rfl) (lockMem_ok hl) hw).trans (Decoded.ok_congr rfl (len_one ..)))⟩

theorem andEvIv (p : Pfx) (rm : RM) (imm : Word) : Statement (.andEvIv p rm imm) := by
  intro h n rest
  obtain ⟨h, hv⟩ := wf_and h
  obtain ⟨hl, hw⟩ := wf_and h
  exact ⟨_, _, rfl, by decide, decode_one (by decide) rfl ((run_rmIv rest (fun _ _ => rfl) (lockMem_ok hl) hw hv).trans (Decoded.ok_congr rfl (len_one ..)))⟩

theorem andEvIbs (p : Pfx) (rm : RM) (imm : Byte) : Statement (.andEvIbs p rm imm) := by
  intro h n rest
  obtain ⟨hl, hw⟩ := wf_and h
  exact ⟨_, _, rfl, by decide, decode_one (by decide) rfl ((run_rmIb rest (fun _ _ => rfl) (lockMem_ok hl) hw).trans (Decoded.ok_congr rfl (len_one ..)))⟩

theorem subEbIb (p : Pfx) (rm : RM) (imm : Byte) : Statement (.subEbIb p rm imm) := by
  intro h n rest
  obtain ⟨hl, hw⟩ := wf_and h
  exact ⟨_, _, rfl, by decide, decode_one (by decide) rfl ((run_rmIb rest (fun _ _ => rfl) (lockMem_ok hl) hw).trans (Decoded.ok_congr rfl (len_one ..)))⟩

theorem subEvIv (p : Pfx) (rm : RM) (imm : Word) : Statement (.subEvIv p rm imm) := by
  intro h n rest
  obtain ⟨h, hv⟩ := wf_and h
  obtain ⟨hl, hw⟩ := wf_and h
  exact ⟨_, _, rfl, by decide, decode_one (by decide) rfl ((run_rmIv rest (fun _ _ => rfl) (lockMem_ok hl) hw hv).trans (Decoded.ok_congr rfl (len_one ..)))⟩

theorem subEvIbs (p : Pfx) (rm : RM) (imm : Byte) : Statement (.subEvIbs p rm imm) := by
  intro h n rest
  obtain ⟨hl, hw⟩ := wf_and h
  exact ⟨_, _, rfl, by decide, decode_one (by decide) rfl ((run_rmIb rest (fun _ _ => rfl) (lockMem_ok hl) hw).trans (Decoded.ok_congr rfl (len_one ..)))⟩

theorem xorEbIb (p : Pfx) (rm : RM) (imm : Byte) : Statement (.xorEbIb p rm imm) := by
  intro h n rest
  obtain ⟨hl, hw⟩ := wf_and h
  exact ⟨_, _, rfl, by decide, decode_one (by decide) rfl ((run_rmIb rest (fun _ _ => rfl) (lockMem_ok hl) hw).trans (Decoded.ok_congr rfl (len_one ..)))⟩

theorem xorEvIv (p : Pfx) (rm : RM) (imm : Word) : Statement (.xorEvIv p rm imm) := by
  intro h n rest
  obtain ⟨h, hv⟩ := wf_and h
  obtain ⟨hl, hw⟩ := wf_and h
  exact ⟨_, _, rfl, by decide, decode_one (by decide) rfl ((run_rmIv rest (fun _ _ => rfl) (lockMem_ok hl) hw hv).trans (Decoded.ok_congr rfl (len_one ..)))⟩

theorem xorEvIbs (p : Pfx) (rm : RM) (imm : Byte) : Statement (.xorEvIbs p rm imm) := by
  intro h n rest
  obtain ⟨hl, hw⟩ := wf_and h
  exact ⟨_, _, rfl, by decide, decode_one (by decide) rfl ((run_rmIb rest (fun _ _ => rfl) (lockMem_ok hl) hw).trans (Decoded.ok_congr rfl (len_one ..)))⟩

theorem cmpEbIb (p : Pfx) (rm : RM) (imm : Byte) : Statement (.cmpEbIb p rm imm) := by
  intro h n rest
  obtain ⟨hl, hw⟩ := wf_and h
  exact ⟨_, _, rfl, by decide, decode_one (by decide) rfl ((run_rmIb rest (fun _ _ => rfl) (noLock_ok hl) hw).trans (Decoded.ok_congr rfl (len_one ..)))⟩

theorem cmpEvIv (p : Pfx) (rm : RM) (imm : Word) : Statement (.cmpEvIv p rm imm) := by
  intro h n rest
  obtain ⟨h, hv⟩ := wf_and h
  obtain ⟨hl, hw⟩ := wf_and h
  exact ⟨_, _, rfl, by decide, decode_one (by decide) rfl ((run_rmIv rest (fun _ _ => rfl) (noLock_ok hl) hw hv).trans (Decoded.ok_congr rfl (len_one ..)))⟩

theorem cmpEvIbs (p : Pfx) (rm : RM) (imm : Byte) : Statement (.cmpEvIbs p rm imm) := by
  intro h n rest
  obtain ⟨hl, hw⟩ := wf_and h
  exact ⟨_, _, rfl, by decide, decode_one (by decide) rfl ((run_rmIb rest (fun _ _ => rfl) (noLock_ok hl) hw).trans (Decoded.ok_congr rfl (len_one ..)))⟩

theorem popEv (p : Pfx) (rm : RM) : Statement (.popEv p rm) := by
  intro h n rest
  obtain ⟨hl, hw⟩ := wf_and h
  exact ⟨_, _, rfl, by decide, decode_one (by decide) rfl ((run_rm rest (fun _ _ => rfl) (noLock_ok hl) hw).trans (Decoded.ok_congr rfl (len_one ..)))⟩

theorem rolEbIb (p : Pfx) (rm : RM) (imm : Byte) : Statement (.rolEbIb p rm imm) := by
  intro h n rest
  obtain ⟨hl, hw⟩ := wf_and h
  exact ⟨_, _, rfl, by decide, decode_one (by decide) rfl ((run_rmIb rest (fun _ _ => rfl) (noLock_ok hl) hw).trans (Decoded.ok_congr rfl (len_one ..)))⟩

theorem rolEvIb (p : Pfx) (rm : RM) (imm : Byte) : Statement (.rolEvIb p rm imm) := by
  intro h n rest
  obtain ⟨hl, hw⟩ := wf_and h
  exact ⟨_, _, rfl, by decide, decode_one (by decide) rfl ((run_rmIb rest (fun _ _ => rfl) (noLock_ok hl) hw).trans (Decoded.ok_congr rfl (len_one ..)))⟩

theorem rolEb1 (p : Pfx) (rm : RM) : Statement (.rolEb1 p rm) := by
  intro h n rest
  obtain ⟨hl, hw⟩ := wf_and h
  exact ⟨_, _, rfl, by decide, decode_one (by decide) rfl ((run_rm rest (fun _ _ => rfl) (noLock_ok hl) hw).trans (Decoded.ok_congr rfl (len_one ..)))⟩

theorem rolEv1 (p : Pfx) (rm : RM) : Statement (.rolEv1 p rm) := by
  intro h n rest
  obtain ⟨hl, hw⟩ := wf_and h
  exact ⟨_, _, rfl, by decide, decode_one (by decide) rfl ((run_rm rest (fun _ _ => rfl) (noLock_ok hl) hw).trans (Decoded.ok_congr rfl (len_one ..)))⟩

theorem rolEbCl (p : Pfx) (rm : RM) : Statement (.rolEbCl p rm) := by
  intro h n rest
  obtain ⟨hl, hw⟩ := wf_and h
  exact ⟨_, _, rfl, by decide, decode_one (by decide) rfl ((run_rm rest (fun _ _ => rfl) (noLock_ok hl) hw).trans (Decoded.ok_congr rfl (len_one ..)))⟩

theorem rolEvCl (p : Pfx) (rm : RM) : Statement (.rolEvCl p rm) := by
  intro h n rest
  obtain ⟨hl, hw⟩ := wf_and h
  exact ⟨_, _, rfl, by decide, decode_one (by decide) rfl ((run_rm rest (fun _ _ => rfl) (noLock_ok hl) hw).trans (Decoded.ok_congr rfl (len_one ..)))⟩

theorem rorEbIb (p : Pfx) (rm : RM) (imm : Byte) : Statement (.rorEbIb p rm imm) := by
  intro h n rest
  obtain ⟨hl, hw⟩ := wf_and h
  exact ⟨_, _, rfl, by decide, decode_one (by decide) rfl ((run_rmIb rest (fun _ _ => rfl) (noLock_ok hl) hw).trans (Decoded.ok_congr rfl (len_one ..)))⟩

theorem rorEvIb (p : Pfx) (rm : RM) (imm : Byte) : Statement (.rorEvIb p rm imm) := by
  intro h n rest
  obtain ⟨hl, hw⟩ := wf_and h
  exact ⟨_, _, rfl, by decide, decode_one (by decide) rfl ((run_rmIb rest (fun _ _ => rfl) (noLock_ok hl) hw).trans (Decoded.ok_congr rfl (len_one ..)))⟩

theorem rorEb1 (p : Pfx) (rm : RM) : Statement (.rorEb1 p rm) := by
  intro h n rest
  obtain ⟨hl, hw⟩ := wf_and h
  exact ⟨_, _, rfl, by decide, decode_one (by decide) rfl ((run_rm rest (fun _ _ => rfl) (noLock_ok hl) hw).trans (Decoded.ok_congr rfl (len_one ..)))⟩

theorem rorEv1 (p : Pfx) (rm : RM) : Statement (.rorEv1 p rm) := by
  intro h n rest
  obtain ⟨hl, hw⟩ := wf_and h
  exact ⟨_, _, rfl, by decide, decode_one (by decide) rfl ((run_rm rest (fun _ _ => rfl) (noLock_ok hl) hw).trans (Decoded.ok_congr rfl (len_one ..)))⟩

theorem rorEbCl (p : Pfx) (rm : RM) : Statement (.rorEbCl p rm) := by
  intro h n rest
  obtain ⟨hl, hw⟩ := wf_and h
  exact ⟨_, _, rfl, by decide, decode_one (by decide) rfl ((run_rm rest (fun _ _ => rfl) (noLock_ok hl) hw).trans (Decoded.ok_congr rfl (len_one ..)))⟩

theorem rorEvCl (p : Pfx) (rm : RM) : Statement (.rorEvCl p rm) := by
  intro h n rest
  obtain ⟨hl, hw⟩ := wf_and h
  exact ⟨_, _, rfl, by decide, decode_one (by decide) rfl ((run_rm rest (fun _ _ => rfl) (noLock_ok hl) hw).trans (Decoded.ok_congr rfl (len_one ..)))⟩

theorem shlEbIb (p : Pfx) (rm : RM) (imm : Byte) : Statement (.shlEbIb p rm imm) := by
  intro h n rest
  obtain ⟨hl, hw⟩ := wf_and h
  exact ⟨_, _, rfl, by decide, decode_one (by decide) rfl ((run_rmIb rest (fun _ _ => rfl) (noLock_ok hl) hw).trans (Decoded.ok_congr rfl (len_one ..)))⟩

theorem shlEvIb (p : Pfx) (rm : RM) (imm : Byte) : Statement (.shlEvIb p rm imm) := by
  intro h n rest
  obtain ⟨hl, hw⟩ := wf_and h
  exact ⟨_, _, rfl, by decide, decode_one (by decide) rfl ((run_rmIb rest (fun _ _ => rfl) (noLock_ok hl) hw).trans (Decoded.ok_congr rfl (len_one ..)))⟩

theorem shlEb1 (p : Pfx) (rm : RM) : Statement (.shlEb1 p rm) := by
  intro h n rest
  obtain ⟨hl, hw⟩ := wf_and h
  exact ⟨_, _, rfl, by decide, decode_one (by decide) rfl ((run_rm rest (fun _ _ => rfl) (noLock_ok hl) hw).trans (Decoded.ok_congr rfl (len_one ..)))⟩

theorem shlEv1 (p : Pfx) (rm : RM) : Statement (.shlEv1 p rm) := by
  intro h n rest
  obtain ⟨hl, hw⟩ := wf_and h
  exact ⟨_, _, rfl, by decide, decode_one (by decide) rfl ((run_rm rest (fun _ _ => rfl) (noLock_ok hl) hw).trans (Decoded.ok_congr rfl (len_one ..)))⟩

theorem shlEbCl (p : Pfx) (rm : RM) : Statement (.shlEbCl p rm) := by
  intro h n rest
  obtain ⟨hl, hw⟩ := wf_and h
  exact ⟨_, _, rfl, by decide, decode_one (by decide) rfl ((run_rm rest (fun _ _ => rfl) (noLock_ok hl) hw).trans (Decoded.ok_congr rfl (len_one ..)))⟩

theorem shlEvCl (p : Pfx) (rm : RM) : Statement (.shlEvCl p rm) := by
  intro h n rest
  obtain ⟨hl, hw⟩ := wf_and h
  exact ⟨_, _, rfl, by decide, decode_one (by decide) rfl ((run_rm rest (fun _ _ => rfl) (noLock_ok hl) hw).trans (Decoded.ok_congr rfl (len_one ..)))⟩

theorem shrEbIb (p : Pfx) (rm : RM) (imm : Byte) : Statement (.shrEbIb p rm imm) := by
  intro h n rest
  obtain ⟨hl, hw⟩ := wf_and h
  exact ⟨_, _, rfl, by decide, decode_one (by decide) rfl ((run_rmIb rest (fun _ _ => rfl) (noLock_ok hl) hw).trans (Decoded.ok_congr rfl (len_one ..)))⟩

theorem shrEvIb (p : Pfx) (rm : RM) (imm : Byte) : Statement (.shrEvIb p rm imm) := by
  intro h n rest
  obtain ⟨hl, hw⟩ := wf_and h
  exact ⟨_, _, rfl, by decide, decode_one (by decide) rfl ((run_rmIb rest (fun _ _ => rfl) (noLock_ok hl) hw).trans (Decoded.ok_congr rfl (len_one ..)))⟩

theorem shrEb1 (p : Pfx) (rm : RM) : Statement (.shrEb1 p rm) := by
  intro h n rest
  obtain ⟨hl, hw⟩ := wf_and h
  exact ⟨_, _, rfl, by decide, decode_one (by decide) rfl ((run_rm rest (fun _ _ => rfl) (noLock_ok hl) hw).trans (Decoded.ok_congr rfl (len_one ..)))⟩

theorem shrEv1 (p : Pfx) (rm : RM) : Statement (.shrEv1 p rm) := by
  intro h n rest
  obtain ⟨hl, hw⟩ := wf_and h
  exact ⟨_, _, rfl, by decide, decode_one (by decide) rfl ((run_rm rest (fun _ _ => rfl) (noLock_ok hl) hw).trans (Decoded.ok_congr rfl (len_one ..)))⟩

theorem shrEbCl (p : Pfx) (rm : RM) : Statement (.shrEbCl p rm) := by
  intro h n rest
  obtain ⟨hl, hw⟩ := wf_and h
  exact ⟨_, _, rfl, by decide, decode_one (by decide) rfl ((run_rm rest (fun _ _ => rfl) (noLock_ok hl) hw).trans (Decoded.ok_congr rfl (len_one ..)))⟩

theorem shrEvCl (p : Pfx) (rm : RM) : Statement (.shrEvCl p rm) := by
  intro h n rest
  obtain ⟨hl, hw⟩ := wf_and h
  exact ⟨_, _, rfl, by decide, decode_one (by decide) rfl ((run_rm rest (fun _ _ => rfl) (noLock_ok hl) hw).trans (Decoded.ok_congr rfl (len_one ..)))⟩

theorem sarEbIb (p : Pfx) (rm : RM) (imm : Byte) : Statement (.sarEbIb p rm imm) := by
  intro h n rest
  obtain ⟨hl, hw⟩ := wf_and h
  exact ⟨_, _, rfl, by decide, decode_one (by decide) rfl ((run_rmIb rest (fun _ _ => rfl) (noLock_ok hl) hw).trans (Decoded.ok_congr rfl (len_one ..)))⟩

theorem sarEvIb (p : Pfx) (rm : RM) (imm : Byte) : Statement (.sarEvIb p rm imm) := by
  intro h n rest
  obtain ⟨hl, hw⟩ := wf_and h
  exact ⟨_, _, rfl, by decide, decode_one (by decide) rfl ((run_rmIb rest (fun _ _ => rfl) (noLock_ok hl) hw).trans (Decoded.ok_congr rfl (len_one ..)))⟩

theorem sarEb1 (p : Pfx) (rm : RM) : Statement (.sarEb1 p rm) := by
  intro h n rest
  obtain ⟨hl, hw⟩ := wf_and h
  exact ⟨_, _, rfl, by decide, decode_one (by decide) rfl ((run_rm rest (fun _ _ => rfl) (noLock_ok hl) hw).trans (Decoded.ok_congr rfl (len_one ..)))⟩

theorem sarEv1 (p : Pfx) (rm : RM) : Statement (.sarEv1 p rm) := by
  intro h n rest
  obtain ⟨hl, hw⟩ := wf_and h
  exact ⟨_, _, rfl, by decide, decode_one (by decide) rfl ((run_rm rest (fun _ _ => rfl) (noLock_ok hl) hw).trans (Decoded.ok_congr rfl (len_one ..)))⟩

theorem sarEbCl (p : Pfx) (rm : RM) : Statement (.sarEbCl p rm) := by
  intro h n rest
  obtain ⟨hl, hw⟩ := wf_and h
  exact ⟨_, _, rfl, by decide, decode_one (by decide) rfl ((run_rm rest (fun _ _ => rfl) (noLock_ok hl) hw).trans (Decoded.ok_congr rfl (len_one ..)))⟩

theorem sarEvCl (p : Pfx) (rm : RM) : Statement (.sarEvCl p rm) := by
  intro h n rest
  obtain ⟨hl, hw⟩ := wf_and h
  exact ⟨_, _, rfl, by decide, decode_one (by decide) rfl ((run_rm rest (fun _ _ => rfl) (noLock_ok hl) hw).trans (Decoded.ok_congr rfl (len_one ..)))⟩

theorem movEbIb (p : Pfx) (rm : RM) (imm : Byte) : Statement (.movEbIb p rm imm) := by
  intro h n rest
  obtain ⟨hl, hw⟩ := wf_and h
  exact ⟨_, _, rfl, by decide, decode_one (by decide) rfl ((run_rmIb rest (fun _ _ => rfl) (noLock_ok hl) hw).trans (Decoded.ok_congr rfl (len_one ..)))⟩

theorem movEvIv (p : Pfx) (rm : RM) (imm : Word) : Statement (.movEvIv p rm imm) := by
  intro h n rest
  obtain ⟨h, hv⟩ := wf_and h
  obtain ⟨hl, hw⟩ := wf_and h
  exact ⟨_, _, rfl, by decide, decode_one (by decide) rfl ((run_rmIv rest (fun _ _ => rfl) (noLock_ok hl) hw hv).trans (Decoded.ok_congr rfl (len_one ..)))⟩

theorem testEbIb (p : Pfx) (rm : RM) (imm : Byte) : Statement (.testEbIb p rm imm) := by
  intro h n rest
  obtain ⟨hl, hw⟩ := wf_and h
  exact ⟨_, _, rfl, by decide, decode_one (by decide) rfl ((run_rmIb rest (fun _ _ => rfl) (noLock_ok hl) hw).trans (Decoded.ok_congr rfl (len_one ..)))⟩

theorem notEb (p : Pfx) (rm : RM) : Statement (.notEb p rm) := by
  intro h n rest
  obtain ⟨hl, hw⟩ := wf_and h
  exact ⟨_, _, rfl, by decide, decode_one (by decide) rfl ((run_rm rest (fun _ _ => rfl) (lockMem_ok hl) hw).trans (Decoded.ok_congr rfl (len_one ..)))⟩

theorem negEb (p : Pfx) (rm : RM) : Statement (.negEb p rm) := by
  intro h n rest
  obtain ⟨hl, hw⟩ := wf_and h
  exact ⟨_, _, rfl, by decide, decode_one (by decide) rfl ((run_rm rest (fun _ _ => rfl) (lockMem_ok hl) hw).trans (Decoded.ok_congr rfl (len_one ..)))⟩

theorem mulEb (p : Pfx) (rm : RM) : Statement (.mulEb p rm) := by
  intro h n rest
  obtain ⟨hl, hw⟩ := wf_and h
  exact ⟨_, _, rfl, by decide, decode_one (by decide) rfl ((run_rm rest (fun _ _ => rfl) (noLock_ok hl) hw).trans (Decoded.ok_congr rfl (len_one ..)))⟩

theorem imulEb (p : Pfx) (rm : RM) : Statement (.imulEb p rm) := by
  intro h n rest
  obtain ⟨hl, hw⟩ := wf_and h
  exact ⟨_, _, rfl, by decide, decode_one (by decide) rfl ((run_rm rest (fun _ _ => rfl) (noLock_ok hl) hw).trans (Decoded.ok_congr rfl (len_one ..)))⟩

theorem divEb (p : Pfx) (rm : RM) : Statement (.divEb p rm) := by
  intro h n rest
  obtain ⟨hl, hw⟩ := wf_and h
  exact ⟨_, _, rfl, by decide, decode_one (by decide) rfl ((run_rm rest (fun _ _ => rfl) (noLock_ok hl) hw).trans (Decoded.ok_congr rfl (len_one ..)))⟩

theorem idivEb (p : Pfx) (rm : RM) : Statement (.idivEb p rm) := by
  intro h n rest
  obtain ⟨hl, hw⟩ := wf_and h
  exact ⟨_, _, rfl, by decide, decode_one (by decide) rfl ((run_rm rest (fun _ _ => rfl) (noLock_ok hl) hw).trans (Decoded.ok_congr rfl (len_one ..)))⟩

theorem testEvIv (p : Pfx) (rm : RM) (imm : Word) : Statement (.testEvIv p rm imm) := by
  intro h n rest
  obtain ⟨h, hv⟩ := wf_and h
  obtain ⟨hl, hw⟩ := wf_and h
  exact ⟨_, _, rfl, by decide, decode_one (by decide) rfl ((run_rmIv rest (fun _ _ => rfl) (noLock_ok hl) hw hv).trans (Decoded.ok_congr rfl (len_one ..)))⟩

theorem notEv (p : Pfx) (rm : RM) : Statement (.notEv p rm) := by
  intro h n rest
  obtain ⟨hl, hw⟩ := wf_and h
  exact ⟨_, _, rfl, by decide, decode_one (by decide) rfl ((run_rm rest (fun _ _ => rfl) (lockMem_ok hl) hw).trans (Decoded.ok_congr rfl (len_one ..)))⟩

theorem negEv (p : Pfx) (rm : RM) : Statement (.negEv p rm) := by
  intro h n rest
  obtain ⟨hl, hw⟩ := wf_and h
  exact ⟨_, _, rfl, by decide, decode_one (by decide) rfl ((run_rm rest (fun _ _ => rfl) (lockMem_ok hl) hw).trans (Decoded.ok_congr rfl (len_one ..)))⟩

theorem mulEv (p : Pfx) (rm : RM) : Statement (.mulEv p rm) := by
  intro h n rest
  obtain ⟨hl, hw⟩ := wf_and h
  exact ⟨_, _, rfl, by decide, decode_one (by decide) rfl ((run_rm rest (fun _ _ => rfl) (noLock_ok hl) hw).trans (Decoded.ok_congr rfl (len_one ..)))⟩

theorem imulEv (p : Pfx) (rm : RM) : Statement (.imulEv p rm) := by
  intro h n rest
  obtain ⟨hl, hw⟩ := wf_and h
  exact ⟨_, _, rfl, by decide, decode_one (by decide) rfl ((run_rm rest (fun _ _ => rfl) (noLock_ok hl) hw).trans (Decoded.ok_congr rfl (len_one ..)))⟩

theorem divEv (p : Pfx) (rm : RM) : Statement (.divEv p rm) := by
  intro h n rest
  obtain ⟨hl, hw⟩ := wf_and h
  exact ⟨_, _, rfl, by decide, decode_one (by decide) rfl ((run_rm rest (fun _ _ => rfl) (noLock_ok hl) hw).trans (Decoded.ok_congr rfl (len_one ..)))⟩

theorem idivEv (p : Pfx) (rm : RM) : Statement (.idivEv p rm) := by
  intro h n rest
  obtain ⟨hl, hw⟩ := wf_and h
  exact ⟨_, _, rfl, by decide, decode_one (by decide) rfl ((run_rm rest (fun _ _ => rfl) (noLock_ok hl) hw).trans (Decoded.ok_congr rfl (len_one ..)))⟩

theorem incEb (p : Pfx) (rm : RM) : Statement (.incEb p rm) := by
  intro h n rest
  obtain ⟨hl, hw⟩ := wf_and h
  exact ⟨_, _, rfl, by decide, decode_one (by decide) rfl ((run_rm rest (fun _ _ => rfl) (lockMem_ok hl) hw).trans (Decoded.ok_congr rfl (len_one ..)))⟩

theorem decEb (p : Pfx) (rm : RM) : Statement (.decEb p rm) := by
  intro h n rest
  obtain ⟨hl, hw⟩ := wf_and h
  exact ⟨_, _, rfl, by decide, decode_one (by decide) rfl ((run_rm rest (fun _ _ => rfl) (lockMem_ok hl) hw).trans (Decoded.ok_congr rfl (len_one ..)))⟩

theorem incEv (p : Pfx) (rm : RM) : Statement (.incEv p rm) := by
  intro h n rest
  obtain ⟨hl, hw⟩ := wf_and h
  exact ⟨_, _, rfl, by decide, decode_one (by decide) rfl ((run_rm rest (fun _ _ => rfl) (lockMem_ok hl) hw).trans (Decoded.ok_congr rfl (len_one ..)))⟩

theorem decEv (p : Pfx) (rm : RM) : Statement (.decEv p rm) := by
  intro h n rest
  obtain ⟨hl, hw⟩ := wf_and h
  exact ⟨_, _, rfl, by decide, decode_one (by decide) rfl ((run_rm rest (fun _ _ => rfl) (lockMem_ok hl) hw).trans (Decoded.ok_congr rfl (len_one ..)))⟩

theorem callEv (p : Pfx) (rm : RM) : Statement (.callEv p rm) := by
  intro h n rest
  obtain ⟨hl, hw⟩ := wf_and h
  exact ⟨_, _, rfl, by decide, decode_one (by decide) rfl ((run_rm rest (fun _ _ => rfl) (noLock_ok hl) hw).trans (Decoded.ok_congr rfl (len_one ..)))⟩

theorem jmpEv (p : Pfx) (rm : RM) : Statement (.jmpEv p rm) := by
  intro h n rest
  obtain ⟨hl, hw⟩ := wf_and h
  exact ⟨_, _, rfl, by decide, decode_one (by decide) rfl ((run_rm rest (fun _ _ => rfl) (noLock_ok hl) hw).trans (Decoded.ok_congr rfl (len_one ..)))⟩

theorem jmpMp (p : Pfx) (m : MemOp) : Statement (.jmpMp p m) := by
  intro h n rest
  obtain ⟨hl, hw⟩ := wf_and h
  exact ⟨_, _, rfl, by decide, decode_one (by decide) rfl ((run_mem rest (fun _ => rfl) (.inl (noLock_eq hl)) hw).trans (Decoded.ok_congr rfl (len_one ..)))⟩

theorem pushEv (p : Pfx) (rm : RM) : Statement (.pushEv p rm) := by
  intro h n rest
  obtain ⟨hl, hw⟩ := wf_and h
  exact ⟨_, _, rfl, by decide, decode_one (by decide) rfl ((run_rm rest (fun _ _ => rfl) (noLock_ok hl) hw).trans (Decoded.ok_congr rfl (len_one ..)))⟩

theorem lldtEw (p : Pfx) (rm : RM) : Statement (.lldtEw p rm) := by
  intro h n rest
  obtain ⟨hl, hw⟩ := wf_and h
  exact ⟨_, _, rfl, by decide, decode_two rfl ((run_rm rest (fun _ _ => rfl) (noLock_ok hl) hw).trans (Decoded.ok_congr rfl (len_two ..)))⟩

theorem ltrEw (p : Pfx) (rm : RM) : Statement (.ltrEw p rm) := by
  intro h n rest
  obtain ⟨hl, hw⟩ := wf_and h
  exact ⟨_, _, rfl, by decide, decode_two rfl ((run_rm rest (fun _ _ => rfl) (noLock_ok hl) hw).trans (Decoded.ok_congr rfl (len_two ..)))⟩

theorem lgdtMs (p : Pfx) (m : MemOp) : Statement (.lgdtMs p m) := by
  intro h n rest
  obtain ⟨hl, hw⟩ := wf_and h
  exact ⟨_, _, rfl, by decide, decode_two rfl ((run_mem rest (fun _ => rfl) (.inl (noLock_eq hl)) hw).trans (Decoded.ok_congr rfl (len_two ..)))⟩

theorem lidtMs (p : Pfx) (m : MemOp) : Statement (.lidtMs p m) := by
  intro h n rest
  obtain ⟨hl, hw⟩ := wf_and h
  exact ⟨_, _, rfl, by decide, decode_two rfl ((run_mem rest (fun _ => rfl) (.inl (noLock_eq hl)) hw).trans (Decoded.ok_congr rfl (len_two ..)))⟩

theorem invlpgM (p : Pfx) (m : MemOp) : Statement (.invlpgM p m) := by
  intro h n rest
  obtain ⟨hl, hw⟩ := wf_and h
  exact ⟨_, _, rfl, by decide, decode_two rfl ((run_mem rest (fun _ => rfl) (.inl (noLock_eq hl)) hw).trans (Decoded.ok_congr rfl (len_two ..)))⟩

theorem movRCr0 (p : Pfx) (r : Reg) : Statement (.movRCr0 p r) := by
  intro hl n rest
  exact ⟨_, _, rfl, by decide, decode_two rfl ((run_bare_fields rest rfl (noLock_eq hl)).trans (Decoded.ok_congr (by simp only [Reg.ofBits_toBits]) rfl))⟩

theorem movRCr2 (p : Pfx) (r : Reg) : Statement (.movRCr2 p r) := by
  intro hl n rest
  exact ⟨_, _, rfl, by decide, decode_two rfl ((run_bare_fields rest rfl (noLock_eq hl)).trans (Decoded.ok_congr (by simp only [Reg.ofBits_toBits]) rfl))⟩

theorem movRCr3 (p : Pfx) (r : Reg) : Statement (.movRCr3 p r) := by
  intro hl n rest
  exact ⟨_, _, rfl, by decide, decode_two rfl ((run_bare_fields rest rfl (noLock_eq hl)).trans (Decoded.ok_congr (by simp only [Reg.ofBits_toBits]) rfl))⟩

theorem movRCr4 (p : Pfx) (r : Reg) : Statement (.movRCr4 p r) := by
  intro hl n rest
  exact ⟨_, _, rfl, by decide, decode_two rfl ((run_bare_fields rest rfl (noLock_eq hl)).trans (Decoded.ok_congr (by simp only [Reg.ofBits_toBits]) rfl))⟩

theorem movCr0R (p : Pfx) (r : Reg) : Statement (.movCr0R p r) := by
  intro hl n rest
  exact ⟨_, _, rfl, by decide, decode_two rfl ((run_bare_fields rest rfl (noLock_eq hl)).trans (Decoded.ok_congr (by simp only [Reg.ofBits_toBits]) rfl))⟩

theorem movCr2R (p : Pfx) (r : Reg) : Statement (.movCr2R p r) := by
  intro hl n rest
  exact ⟨_, _, rfl, by decide, decode_two rfl ((run_bare_fields rest rfl (noLock_eq hl)).trans (Decoded.ok_congr (by simp only [Reg.ofBits_toBits]) rfl))⟩

theorem movCr3R (p : Pfx) (r : Reg) : Statement (.movCr3R p r) := by
  intro hl n rest
  exact ⟨_, _, rfl, by decide, decode_two rfl ((run_bare_fields rest rfl (noLock_eq hl)).trans (Decoded.ok_congr (by simp only [Reg.ofBits_toBits]) rfl))⟩

theorem movCr4R (p : Pfx) (r : Reg) : Statement (.movCr4R p r) := by
  intro hl n rest
  exact ⟨_, _, rfl, by decide, decode_two rfl ((run_bare_fields rest rfl (noLock_eq hl)).trans (Decoded.ok_congr (by simp only [Reg.ofBits_toBits]) rfl))⟩

theorem btEvIb (p : Pfx) (rm : RM) (imm : Byte) : Statement (.btEvIb p rm imm) := by
  intro h n rest
  obtain ⟨hl, hw⟩ := wf_and h
  exact ⟨_, _, rfl, by decide, decode_two rfl ((run_rmIb rest (fun _ _ => rfl) (lockMem_ok hl) hw).trans (Decoded.ok_congr rfl (len_two ..)))⟩

theorem btsEvIb (p : Pfx) (rm : RM) (imm : Byte) : Statement (.btsEvIb p rm imm) := by
  intro h n rest
  obtain ⟨hl, hw⟩ := wf_and h
  exact ⟨_, _, rfl, by decide, decode_two rfl ((run_rmIb rest (fun _ _ => rfl) (lockMem_ok hl) hw).trans (Decoded.ok_congr rfl (len_two ..)))⟩

theorem btrEvIb (p : Pfx) (rm : RM) (imm : Byte) : Statement (.btrEvIb p rm imm) := by
  intro h n rest
  obtain ⟨hl, hw⟩ := wf_and h
  exact ⟨_, _, rfl, by decide, decode_two rfl ((run_rmIb rest (fun _ _ => rfl) (lockMem_ok hl) hw).trans (Decoded.ok_congr rfl (len_two ..)))⟩

theorem btcEvIb (p : Pfx) (rm : RM) (imm : Byte) : Statement (.btcEvIb p rm imm) := by
  intro h n rest
  obtain ⟨hl, hw⟩ := wf_and h
  exact ⟨_, _, rfl, by decide, decode_two rfl ((run_rmIb rest (fun _ _ => rfl) (lockMem_ok hl) hw).trans (Decoded.ok_congr rfl (len_two ..)))⟩

theorem cmpxchg8bMq (p : Pfx) (m : MemOp) : Statement (.cmpxchg8bMq p m) := by
  intro hw n rest
  exact ⟨_, _, rfl, by decide, decode_two rfl ((run_mem rest (fun _ => rfl) (.inr rfl) hw).trans (Decoded.ok_congr rfl (len_two ..)))⟩

theorem faddM32 (p : Pfx) (m : MemOp) : Statement (.faddM32 p m) := by
  intro h n rest
  obtain ⟨hl, hw⟩ := wf_and h
  exact ⟨_, _, rfl, by decide, decode_one (by decide) rfl ((run_mem rest (fun _ => rfl) (.inl (noLock_eq hl)) hw).trans (Decoded.ok_congr rfl (len_one ..)))⟩

theorem faddM64 (p : Pfx) (m : MemOp) : Statement (.faddM64 p m) := by
  intro h n rest
  obtain ⟨hl, hw⟩ := wf_and h
  exact ⟨_, _, rfl, by decide, decode_one (by decide) rfl ((run_mem rest (fun _ => rfl) (.inl (noLock_eq hl)) hw).trans (Decoded.ok_congr rfl (len_one ..)))⟩

theorem fcomM32 (p : Pfx) (m : MemOp) : Statement (.fcomM32 p m) := by
  intro h n rest
  obtain ⟨hl, hw⟩ := wf_and h
  exact ⟨_, _, rfl, by decide, decode_one (by decide) rfl ((run_mem rest (fun _ => rfl) (.inl (noLock_eq hl)) hw).trans (Decoded.ok_congr rfl (len_one ..)))⟩

theorem fcomM64 (p : Pfx) (m : MemOp) : Statement (.fcomM64 p m) := by
  intro h n rest
  obtain ⟨hl, hw⟩ := wf_and h
  exact ⟨_, _, rfl, by decide, decode_one (by decide) rfl ((run_mem rest (fun _ => rfl) (.inl (noLock_eq hl)) hw).trans (Decoded.ok_congr rfl (len_one ..)))⟩

theorem fcompM32 (p : Pfx) (m : MemOp) : Statement (.fcompM32 p m) := by
  intro h n rest
  obtain ⟨hl, hw⟩ := wf_and h
  exact ⟨_, _, rfl, by decide, decode_one (by decide) rfl ((run_mem rest (fun _ => rfl) (.inl (noLock_eq hl)) hw).trans (Decoded.ok_congr rfl (len_one ..)))⟩

theorem fcompM64 (p : Pfx) (m : MemOp) : Statement (.fcompM64 p m) := by
  intro h n rest
  obtain ⟨hl, hw⟩ := wf_and h
  exact ⟨_, _, rfl, by decide, decode_one (by decide) rfl ((run_mem rest (fun _ => rfl) (.inl (noLock_eq hl)) hw).trans (Decoded.ok_congr rfl (len_one ..)))⟩

theorem fiaddM16 (p : Pfx) (m : MemOp) : Statement (.fiaddM16 p m) := by
  intro h n rest
  obtain ⟨hl, hw⟩ := wf_and h
  exact ⟨_, _, rfl, by decide, decode_one (by decide) rfl ((run_mem rest (fun _ => rfl) (.inl (noLock_eq hl)) hw).trans (Decoded.ok_congr rfl (len_one ..)))⟩

theorem fiaddM32 (p : Pfx) (m : MemOp) : Statement (.fiaddM32 p m) := by
  intro h n rest
  obtain ⟨hl, hw⟩ := wf_and h
  exact ⟨_, _, rfl, by decide, decode_one (by decide) rfl ((run_mem rest (fun _ => rfl) (.inl (noLock_eq hl)) hw).trans (Decoded.ok_congr rfl (len_one ..)))⟩

theorem ficomM16 (p : Pfx) (m : MemOp) : Statement (.ficomM16 p m) := by
  intro h n rest
  obtain ⟨hl, hw⟩ := wf_and h
  exact ⟨_, _, rfl, by decide, decode_one (by decide) rfl ((run_mem rest (fun _ => rfl) (.inl (noLock_eq hl)) hw).trans (Decoded.ok_congr rfl (len_one ..)))⟩

theorem ficomM32 (p : Pfx) (m : MemOp) : Statement (.ficomM32 p m) := by
  intro h n rest
  obtain ⟨hl, hw⟩ := wf_and h
  exact ⟨_, _, rfl, by decide, decode_one (by decide) rfl ((run_mem rest (fun _ => rfl) (.inl (noLock_eq hl)) hw).trans (Decoded.ok_congr rfl (len_one ..)))⟩

theorem ficompM16 (p : Pfx) (m : MemOp) : Statement (.ficompM16 p m) := by
  intro h n rest
  obtain ⟨hl, hw⟩ := wf_and h
  exact ⟨_, _, rfl, by decide, decode_one (by decide) rfl ((run_mem rest (fun _ => rfl) (.inl (noLock_eq hl)) hw).trans (Decoded.ok_congr rfl (len_one ..)))⟩

theorem ficompM32 (p : Pfx) (m : MemOp) : Statement (.ficompM32 p m) := by
  intro h n rest
  obtain ⟨hl, hw⟩ := wf_and h
  exact ⟨_, _, rfl, by decide, decode_one (by decide) rfl ((run_mem rest (fun _ => rfl) (.inl (noLock_eq hl)) hw).trans (Decoded.ok_congr rfl (len_one ..)))⟩

theorem fildM16 (p : Pfx) (m : MemOp) : Statement (.fildM16 p m) := by
  intro h n rest
  obtain ⟨hl, hw⟩ := wf_and h
  exact ⟨_, _, rfl, by decide, decode_one (by decide) rfl ((run_mem rest (fun _ => rfl) (.inl (noLock_eq hl)) hw).trans (Decoded.ok_congr rfl (len_one ..)))⟩

theorem fildM32 (p : Pfx) (m : MemOp) : Statement (.fildM32 p m) := by
  intro h n rest
  obtain ⟨hl, hw⟩ := wf_and h
  exact ⟨_, _, rfl, by decide, decode_one (by decide) rfl ((run_mem rest (fun _ => rfl) (.inl (noLock_eq hl)) hw).trans (Decoded.ok_congr rfl (len_one ..)))⟩

theorem fildM64 (p : Pfx) (m : MemOp) : Statement (.fildM64 p m) := by
  intro h n rest
  obtain ⟨hl, hw⟩ := wf_and h
  exact ⟨_, _, rfl, by decide, decode_one (by decide) rfl ((run_mem rest (fun _ => rfl) (.inl (noLock_eq hl)) hw).trans (Decoded.ok_congr rfl (len_one ..)))⟩

theorem fimulM16 (p : Pfx) (m : MemOp) : Statement (.fimulM16 p m) := by
  intro h n rest
  obtain ⟨hl, hw⟩ := wf_and h
  exact ⟨_, _, rfl, by decide, decode_one (by decide) rfl ((run_mem rest (fun _ => rfl) (.inl (noLock_eq hl)) hw).trans (Decoded.ok_congr rfl (len_one ..)))⟩

theorem fimulM32 (p : Pfx) (m : MemOp) : Statement (.fimulM32 p m) := by
  intro h n rest
  obtain ⟨hl, hw⟩ := wf_and h
  exact ⟨_, _, rfl, by decide, decode_one (by decide) rfl ((run_mem rest (fun _ => rfl) (.inl (noLock_eq hl)) hw).trans (Decoded.ok_congr rfl (len_one ..)))⟩

theorem fistM16 (p : Pfx) (m : MemOp) : Statement (.fistM16 p m) := by
  intro h n rest
  obtain ⟨hl, hw⟩ := wf_and h
  exact ⟨_, _, rfl, by decide, decode_one (by decide) rfl ((run_mem rest (fun _ => rfl) (.inl (noLock_eq hl)) hw).trans (Decoded.ok_congr rfl (len_one ..)))⟩

theorem fistM32 (p : Pfx) (m : MemOp) : Statement (.fistM32 p m) := by
  intro h n rest
  obtain ⟨hl, hw⟩ := wf_and h
  exact ⟨_, _, rfl, by decide, decode_one (by decide) rfl ((run_mem rest (fun _ => rfl) (.inl (noLock_eq hl)) hw).trans (Decoded.ok_congr rfl (len_one ..)))⟩

theorem fistpM16 (p : Pfx) (m : MemOp) : Statement (.fistpM16 p m) := by
  intro h n rest
  obtain ⟨hl, hw⟩ := wf_and h
  exact ⟨_, _, rfl, by decide, decode_one (by decide) rfl ((run_mem rest (fun _ => rfl) (.inl (noLock_eq hl)) hw).trans (Decoded.ok_congr rfl (len_one ..)))⟩

theorem fistpM32 (p : Pfx) (m : MemOp) : Statement (.fistpM32 p m) := by
  intro h n rest
  obtain ⟨hl, hw⟩ := wf_and h
  exact ⟨_, _, rfl, by decide, decode_one (by decide) rfl ((run_mem rest (fun _ => rfl) (.inl (noLock_eq hl)) hw).trans (Decoded.ok_congr rfl (len_one ..)))⟩

theorem fistpM64 (p : Pfx) (m : MemOp) : Statement (.fistpM64 p m) := by
  intro h n rest
  obtain ⟨hl, hw⟩ := wf_and h
  exact ⟨_, _, rfl, by decide, decode_one (by decide) rfl ((run_mem rest (fun _ => rfl) (.inl (noLock_eq hl)) hw).trans (Decoded.ok_congr rfl (len_one ..)))⟩

theorem fisubM16 (p : Pfx) (m : MemOp) : Statement (.fisubM16 p m) := by
  intro h n rest
  obtain ⟨hl, hw⟩ := wf_and h
  exact ⟨_, _, rfl, by decide, decode_one (by decide) rfl ((run_mem rest (fun _ => rfl) (.inl (noLock_eq hl)) hw).trans (Decoded.ok_congr rfl (len_one ..)))⟩

theorem fisubM32 (p : Pfx) (m : MemOp) : Statement (.fisubM32 p m) := by
  intro h n rest
  obtain ⟨hl, hw⟩ := wf_and h
  exact ⟨_, _, rfl, by decide, decode_one (by decide) rfl ((run_mem rest (fun _ => rfl) (.inl (noLock_eq hl)) hw).trans (Decoded.ok_congr rfl (len_one ..)))⟩

theorem fisubrM16 (p : Pfx) (m : MemOp) : Statement (.fisubrM16 p m) := by
  intro h n rest
  obtain ⟨hl, hw⟩ := wf_and h
  exact ⟨_, _, rfl, by decide, decode_one (by decide) rfl ((run_mem rest (fun _ => rfl) (.inl (noLock_eq hl)) hw).trans (Decoded.ok_congr rfl (len_one ..)))⟩

theorem fisubrM32 (p : Pfx) (m : MemOp) : Statement (.fisubrM32 p m) := by
  intro h n rest
  obtain ⟨hl, hw⟩ := wf_and h
  exact ⟨_, _, rfl, by decide, decode_one (by decide) rfl ((run_mem rest (fun _ => rfl) (.inl (noLock_eq hl)) hw).trans (Decoded.ok_congr rfl (len_one ..)))⟩

theorem fldM32 (p : Pfx) (m : MemOp) : Statement (.fldM32 p m) := by
  intro h n rest
  obtain ⟨hl, hw⟩ := wf_and h
  exact ⟨_, _, rfl, by decide, decode_one (by decide) rfl ((run_mem rest (fun _ => rfl) (.inl (noLock_eq hl)) hw).trans (Decoded.ok_congr rfl (len_one ..)))⟩

theorem fldM64 (p : Pfx) (m : MemOp) : Statement (.fldM64 p m) := by
  intro h n rest
  obtain ⟨hl, hw⟩ := wf_and h
  exact ⟨_, _, rfl, by decide, decode_one (by decide) rfl ((run_mem rest (fun _ => rfl) (.inl (noLock_eq hl)) hw).trans (Decoded.ok_congr rfl (len_one ..)))⟩

theorem fldM80 (p : Pfx) (m : MemOp) : Statement (.fldM80 p m) := by
  intro h n rest
  obtain ⟨hl, hw⟩ := wf_and h
  exact ⟨_, _, rfl, by decide, decode_one (by decide) rfl ((run_mem rest (fun _ => rfl) (.inl (noLock_eq hl)) hw).trans (Decoded.ok_congr rfl (len_one ..)))⟩

theorem fmulM32 (p : Pfx) (m : MemOp) : Statement (.fmulM32 p m) := by
  intro h n rest
  obtain ⟨hl, hw⟩ := wf_and h
  exact ⟨_, _, rfl, by decide, decode_one (by decide) rfl ((run_mem rest (fun _ => rfl) (.inl (noLock_eq hl)) hw).trans (Decoded.ok_congr rfl (len_one ..)))⟩

theorem fmulM64 (p : Pfx) (m : MemOp) : Statement (.fmulM64 p m) := by
  intro h n rest
  obtain ⟨hl, hw⟩ := wf_and h
  exact ⟨_, _, rfl, by decide, decode_one (by decide) rfl ((run_mem rest (fun _ => rfl) (.inl (noLock_eq hl)) hw).trans (Decoded.ok_congr rfl (len_one ..)))⟩

theorem fstM32 (p : Pfx) (m : MemOp) : Statement (.fstM32 p m) := by
  intro h n rest
  obtain ⟨hl, hw⟩ := wf_and h
  exact ⟨_, _, rfl, by decide, decode_one (by decide) rfl ((run_mem rest (fun _ => rfl) (.inl (noLock_eq hl)) hw).trans (Decoded.ok_congr rfl (len_one ..)))⟩

theorem fstM64 (p : Pfx) (m : MemOp) : Statement (.fstM64 p m) := by
  intro h n rest
  obtain ⟨hl, hw⟩ := wf_and h
  exact ⟨_, _, rfl, by decide, decode_one (by decide) rfl ((run_mem rest (fun _ => rfl) (.inl (noLock_eq hl)) hw).trans (Decoded.ok_congr rfl (len_one ..)))⟩

theorem fstpM32 (p : Pfx) (m : MemOp) : Statement (.fstpM32 p m) := by
  intro h n rest
  obtain ⟨hl, hw⟩ := wf_and h
  exact ⟨_, _, rfl, by decide, decode_one (by decide) rfl ((run_mem rest (fun _ => rfl) (.inl (noLock_eq hl)) hw).trans (Decoded.ok_congr rfl (len_one ..)))⟩

theorem fstpM64 (p : Pfx) (m : MemOp) : Statement (.fstpM64 p m) := by
  intro h n rest
  obtain ⟨hl, hw⟩ := wf_and h
  exact ⟨_, _, rfl, by decide, decode_one (by decide) rfl ((run_mem rest (fun _ => rfl) (.inl (noLock_eq hl)) hw).trans (Decoded.ok_congr rfl (len_one ..)))⟩

theorem fstpM80 (p : Pfx) (m : MemOp) : Statement (.fstpM80 p m) := by
  intro h n rest
  obtain ⟨hl, hw⟩ := wf_and h
  exact ⟨_, _, rfl, by decide, decode_one (by decide) rfl ((run_mem rest (fun _ => rfl) (.inl (noLock_eq hl)) hw).trans (Decoded.ok_congr rfl (len_one ..)))⟩

theorem fsubM32 (p : Pfx) (m : MemOp) : Statement (.fsubM32 p m) := by
  intro h n rest
  obtain ⟨hl, hw⟩ := wf_and h
  exact ⟨_, _, rfl, by decide, decode_one (by decide) rfl ((run_mem rest (fun _ => rfl) (.inl (noLock_eq hl)) hw).trans (Decoded.ok_congr rfl (len_one ..)))⟩

theorem fsubM64 (p : Pfx) (m : MemOp) : Statement (.fsubM64 p m) := by
  intro h n rest
  obtain ⟨hl, hw⟩ := wf_and h
  exact ⟨_, _, rfl, by decide, decode_one (by decide) rfl ((run_mem rest (fun _ => rfl) (.inl (noLock_eq hl)) hw).trans (Decoded.ok_congr rfl (len_one ..)))⟩

theorem fsubrM32 (p : Pfx) (m : MemOp) : Statement (.fsubrM32 p m) := by
  intro h n rest
  obtain ⟨hl, hw⟩ := wf_and h
  exact ⟨_, _, rfl, by decide, decode_one (by decide) rfl ((run_mem rest (fun _ => rfl) (.inl (noLock_eq hl)) hw).trans (Decoded.ok_congr rfl (len_one ..)))⟩

theorem fsubrM64 (p : Pfx) (m : MemOp) : Statement (.fsubrM64 p m) := by
  intro h n rest
  obtain ⟨hl, hw⟩ := wf_and h
  exact ⟨_, _, rfl, by decide, decode_one (by decide) rfl ((run_mem rest (fun _ => rfl) (.inl (noLock_eq hl)) hw).trans (Decoded.ok_congr rfl (len_one ..)))⟩

theorem addEbGb (p : Pfx) (rm : RM) (g : Reg) : Statement (.addEbGb p rm g) := by
  intro h n rest
  obtain ⟨hl, hw⟩ := wf_and h
  exact ⟨_, _, rfl, by decide, decode_one (by decide) rfl ((run_rm rest (fun _ _ => rfl) (lockMem_ok hl) hw).trans (Decoded.ok_congr (by simp only [Reg.ofBits_toBits]) (len_one ..)))⟩

theorem addEvGv (p : Pfx) (rm : RM) (g : Reg) : Statement (.addEvGv p rm g) := by
  intro h n rest
  obtain ⟨hl, hw⟩ := wf_and h
  exact ⟨_, _, rfl, by decide, decode_one (by decide) rfl ((run_rm rest (fun _ _ => rfl) (lockMem_ok hl) hw).trans (Decoded.ok_congr (by simp only [Reg.ofBits_toBits]) (len_one ..)))⟩

theorem addGbEb (p : Pfx) (g : Reg) (rm : RM) : Statement (.addGbEb p g rm) := by
  intro h n rest
  obtain ⟨hl, hw⟩ := wf_and h
  exact ⟨_, _, rfl, by decide, decode_one (by decide) rfl ((run_rm rest (fun _ _ => rfl) (noLock_ok hl) hw).trans (Decoded.ok_congr (by simp only [Reg.ofBits_toBits]) (len_one ..)))⟩

theorem addGvEv (p : Pfx) (g : Reg) (rm : RM) : Statement (.addGvEv p g rm) := by
  intro h n rest
  obtain ⟨hl, hw⟩ := wf_and h
  exact ⟨_, _, rfl, by decide, decode_one (by decide) rfl ((run_rm rest (fun _ _ => rfl) (noLock_ok hl) hw).trans (Decoded.ok_congr (by simp only [Reg.ofBits_toBits]) (len_one ..)))⟩

theorem addAlIb (p : Pfx) (imm : Byte) : Statement (.addAlIb p imm) := by
  intro hl n rest
  exact ⟨_, _, rfl, by decide, decode_one (by decide) rfl ((run_ib rest (noLock_eq hl)).trans (Decoded.ok_congr rfl rfl))⟩

theorem addEaxIv (p : Pfx) (imm : Word) : Statement (.addEaxIv p imm) := by
  intro h n rest
  obtain ⟨hl, hv⟩ := wf_and h
  exact ⟨_, _, rfl, by decide, decode_one (by decide) rfl ((run_iv rest (noLock_eq hl) hv).trans (Decoded.ok_congr rfl (len_one ..)))⟩

theorem orEbGb (p : Pfx) (rm : RM) (g : Reg) : Statement (.orEbGb p rm g) := by
  intro h n rest
  obtain ⟨hl, hw⟩ := wf_and h
  exact ⟨_, _, rfl, by decide, decode_one (by decide) rfl ((run_rm rest (fun _ _ => rfl) (lockMem_ok hl) hw).trans (Decoded.ok_congr (by simp only [Reg.ofBits_toBits]) (len_one ..)))⟩

theorem orEvGv (p : Pfx) (rm : RM) (g : Reg) : Statement (.orEvGv p rm g) := by
  intro h n rest
  obtain ⟨hl, hw⟩ := wf_and h
  exact ⟨_, _, rfl, by decide, decode_one (by decide) rfl ((run_rm rest (fun _ _ => rfl) (lockMem_ok hl) hw).trans (Decoded.ok_congr (by simp only [Reg.ofBits_toBits]) (len_one ..)))⟩

theorem orGbEb (p : Pfx) (g : Reg) (rm : RM) : Statement (.orGbEb p g rm) := by
  intro h n rest
  obtain ⟨hl, hw⟩ := wf_and h
  exact ⟨_, _, rfl, by decide, decode_one (by decide) rfl ((run_rm rest (fun _ _ => rfl) (noLock_ok hl) hw).trans (Decoded.ok_congr (by simp only [Reg.ofBits_toBits]) (len_one ..)))⟩

theorem orGvEv (p : Pfx) (g : Reg) (rm : RM) : Statement (.orGvEv p g rm) := by
  intro h n rest
  obtain ⟨hl, hw⟩ := wf_and h
  exact ⟨_, _, rfl, by decide, decode_one (by decide) rfl ((run_rm rest (fun _ _ => rfl) (noLock_ok hl) hw).trans (Decoded.ok_congr (by simp only [Reg.ofBits_toBits]) (len_one ..)))⟩

theorem orAlIb (p : Pfx) (imm : Byte) : Statement (.orAlIb p imm) := by
  intro hl n rest
  exact ⟨_, _, rfl, by decide, decode_one (by decide) rfl ((run_ib rest (noLock_eq hl)).trans (Decoded.ok_congr rfl rfl))⟩

theorem orEaxIv (p : Pfx) (imm : Word) : Statement (.orEaxIv p imm) := by
  intro h n rest
  obtain ⟨hl, hv⟩ := wf_and h
  exact ⟨_, _, rfl, by decide, decode_one (by decide) rfl ((run_iv rest (noLock_eq hl) hv).trans (Decoded.ok_congr rfl (len_one ..)))⟩

theorem adcEbGb (p : Pfx) (rm : RM) (g : Reg) : Statement (.adcEbGb p rm g) := by
  intro h n rest
  obtain ⟨hl, hw⟩ := wf_and h
  exact ⟨_, _, rfl, by decide, decode_one (by decide) rfl ((run_rm rest (fun _ _ => rfl) (lockMem_ok hl) hw).trans (Decoded.ok_congr (by simp only [Reg.ofBits_toBits]) (len_one ..)))⟩

theorem adcEvGv (p : Pfx) (rm : RM) (g : Reg) : Statement (.adcEvGv p rm g) := by
  intro h n rest
  obtain ⟨hl, hw⟩ := wf_and h
  exact ⟨_, _, rfl, by decide, decode_one (by decide) rfl ((run_rm rest (fun _ _ => rfl) (lockMem_ok hl) hw).trans (Decoded.ok_congr (by simp only [Reg.ofBits_toBits]) (len_one ..)))⟩

theorem adcGbEb (p : Pfx) (g : Reg) (rm : RM) : Statement (.adcGbEb p g rm) := by
  intro h n rest
  obtain ⟨hl, hw⟩ := wf_and h
  exact ⟨_, _, rfl, by decide, decode_one (by decide) rfl ((run_rm rest (fun _ _ => rfl) (noLock_ok hl) hw).trans (Decoded.ok_congr (by simp only [Reg.ofBits_toBits]) (len_one ..)))⟩

theorem adcGvEv (p : Pfx) (g : Reg) (rm : RM) : Statement (.adcGvEv p g rm) := by
  intro h n rest
  obtain ⟨hl, hw⟩ := wf_and h
  exact ⟨_, _, rfl, by decide, decode_one (by decide) rfl ((run_rm rest (fun _ _ => rfl) (noLock_ok hl) hw).trans (Decoded.ok_congr (by simp only [Reg.ofBits_toBits]) (len_one ..)))⟩

theorem adcAlIb (p : Pfx) (imm : Byte) : Statement (.adcAlIb p imm) := by
  intro hl n rest
  exact ⟨_, _, rfl, by decide, decode_one (by decide) rfl ((run_ib rest (noLock_eq hl)).trans (Decoded.ok_congr rfl rfl))⟩

theorem adcEaxIv (p : Pfx) (imm : Word) : Statement (.adcEaxIv p imm) := by
  intro h n rest
  obtain ⟨hl, hv⟩ := wf_and h
  exact ⟨_, _, rfl, by decide, decode_one (by decide) rfl ((run_iv rest (noLock_eq hl) hv).trans (Decoded.ok_congr rfl (len_one ..)))⟩

theorem sbbEbGb (p : Pfx) (rm : RM) (g : Reg) : Statement (.sbbEbGb p rm g) := by
  intro h n rest
  obtain ⟨hl, hw⟩ := wf_and h
  exact ⟨_, _, rfl, by decide, decode_one (by decide) rfl ((run_rm rest (fun _ _ => rfl) (lockMem_ok hl) hw).trans (Decoded.ok_congr (by simp only [Reg.ofBits_toBits]) (len_one ..)))⟩

theorem sbbEvGv (p : Pfx) (rm : RM) (g : Reg) : Statement (.sbbEvGv p rm g) := by
  intro h n rest
  obtain ⟨hl, hw⟩ := wf_and h
  exact ⟨_, _, rfl, by decide, decode_one (by decide) rfl ((run_rm rest (fun _ _ => rfl) (lockMem_ok hl) hw).trans (Decoded.ok_congr (by simp only [Reg.ofBits_toBits]) (len_one ..)))⟩

theorem sbbGbEb (p : Pfx) (g : Reg) (rm : RM) : Statement (.sbbGbEb p g rm) := by
  intro h n rest
  obtain ⟨hl, hw⟩ := wf_and h
  exact ⟨_, _, rfl, by decide, decode_one (by decide) rfl ((run_rm rest (fun _ _ => rfl) (noLock_ok hl) hw).trans (Decoded.ok_congr (by simp only [Reg.ofBits_toBits]) (len_one ..)))⟩

theorem sbbGvEv (p : Pfx) (g : Reg) (rm : RM) : Statement (.sbbGvEv p g rm) := by
  intro h n rest
  obtain ⟨hl, hw⟩ := wf_and h
  exact ⟨_, _, rfl, by decide, decode_one (by decide) rfl ((run_rm rest (fun _ _ => rfl) (noLock_ok hl) hw).trans (Decoded.ok_congr (by simp only [Reg.ofBits_toBits]) (len_one ..)))⟩

theorem sbbAlIb (p : Pfx) (imm : Byte) : Statement (.sbbAlIb p imm) := by
  intro hl n rest
  exact ⟨_, _, rfl, by decide, decode_one (by decide) rfl ((run_ib rest (noLock_eq hl)).trans (Decoded.ok_congr rfl rfl))⟩

theorem sbbEaxIv (p : Pfx) (imm : Word) : Statement (.sbbEaxIv p imm) := by
  intro h n rest
  obtain ⟨hl, hv⟩ := wf_and h
  exact ⟨_, _, rfl, by decide, decode_one (by decide) rfl ((run_iv rest (noLock_eq hl) hv).trans (Decoded.ok_congr rfl (len_one ..)))⟩

theorem andEbGb (p : Pfx) (rm : RM) (g : Reg) : Statement (.andEbGb p rm g) := by
  intro h n rest
  obtain ⟨hl, hw⟩ := wf_and h
  exact ⟨_, _, rfl, by decide, decode_one (by decide) rfl ((run_rm rest (fun _ _ => rfl) (lockMem_ok hl) hw).trans (Decoded.ok_congr (by simp only [Reg.ofBits_toBits]) (len_one ..)))⟩

theorem andEvGv (p : Pfx) (rm : RM) (g : Reg) : Statement (.andEvGv p rm g) := by
  intro h n rest
  obtain ⟨hl, hw⟩ := wf_and h
  exact ⟨_, _, rfl, by decide, decode_one (by decide) rfl ((run_rm rest (fun _ _ => rfl) (lockMem_ok hl) hw).trans (Decoded.ok_congr (by simp only [Reg.ofBits_toBits]) (len_one ..)))⟩

theorem andGbEb (p : Pfx) (g : Reg) (rm : RM) : Statement (.andGbEb p g rm) := by
  intro h n rest
  obtain ⟨hl, hw⟩ := wf_and h
  exact ⟨_, _, rfl, by decide, decode_one (by decide) rfl ((run_rm rest (fun _ _ => rfl) (noLock_ok hl) hw).trans (Decoded.ok_congr (by simp only [Reg.ofBits_toBits]) (len_one ..)))⟩

theorem andGvEv (p : Pfx) (g : Reg) (rm : RM) : Statement (.andGvEv p g rm) := by
  intro h n rest
  obtain ⟨hl, hw⟩ := wf_and h
  exact ⟨_, _, rfl, by decide, decode_one (by decide) rfl ((run_rm rest (fun _ _ => rfl) (noLock_ok hl) hw).trans (Decoded.ok_congr (by simp only [Reg.ofBits_toBits]) (len_one ..)))⟩

theorem andAlIb (p : Pfx) (imm : Byte) : Statement (.andAlIb p imm) := by
  intro hl n rest
  exact ⟨_, _, rfl, by decide, decode_one (by decide) rfl ((run_ib rest (noLock_eq hl)).trans (Decoded.ok_congr rfl rfl))⟩

theorem andEaxIv (p : Pfx) (imm : Word) : Statement (.andEaxIv p imm) := by
  intro h n rest
  obtain ⟨hl, hv⟩ := wf_and h
  exact ⟨_, _, rfl, by decide, decode_one (by decide) rfl ((run_iv rest (noLock_eq hl) hv).trans (Decoded.ok_congr rfl (len_one ..)))⟩

theorem subEbGb (p : Pfx) (rm : RM) (g : Reg) : Statement (.subEbGb p rm g) := by
  intro h n rest
  obtain ⟨hl, hw⟩ := wf_and h
  exact ⟨_, _, rfl, by decide, decode_one (by decide) rfl ((run_rm rest (fun _ _ => rfl) (lockMem_ok hl) hw).trans (Decoded.ok_congr (by simp only [Reg.ofBits_toBits]) (len_one ..)))⟩

theorem subEvGv (p : Pfx) (rm : RM) (g : Reg) : Statement (.subEvGv p rm g) := by
  intro h n rest
  obtain ⟨hl, hw⟩ := wf_and h
  exact ⟨_, _, rfl, by decide, decode_one (by decide) rfl ((run_rm rest (fun _ _ => rfl) (lockMem_ok hl) hw).trans (Decoded.ok_congr (by simp only [Reg.ofBits_toBits]) (len_one ..)))⟩

theorem subGbEb (p : Pfx) (g : Reg) (rm : RM) : Statement (.subGbEb p g rm) := by
  intro h n rest
  obtain ⟨hl, hw⟩ := wf_and h
  exact ⟨_, _, rfl, by decide, decode_one (by decide) rfl ((run_rm rest (fun _ _ => rfl) (noLock_ok hl) hw).trans (Decoded.ok_congr (by simp only [Reg.ofBits_toBits]) (len_one ..)))⟩

theorem subGvEv (p : Pfx) (g : Reg) (rm : RM) : Statement (.subGvEv p g rm) := by
  intro h n rest
  obtain ⟨hl, hw⟩ := wf_and h
  exact ⟨_, _, rfl, by decide, decode_one (by decide) rfl ((run_rm rest (fun _ _ => rfl) (noLock_ok hl) hw).trans (Decoded.ok_congr (by simp only [Reg.ofBits_toBits]) (len_one ..)))⟩

theorem subAlIb (p : Pfx) (imm : Byte) : Statement (.subAlIb p imm) := by
  intro hl n rest
  exact ⟨_, _, rfl, by decide, decode_one (by decide) rfl ((run_ib rest (noLock_eq hl)).trans (Decoded.ok_congr rfl rfl))⟩

theorem subEaxIv (p : Pfx) (imm : Word) : Statement (.subEaxIv p imm) := by
  intro h n rest
  obtain ⟨hl, hv⟩ := wf_and h
  exact ⟨_, _, rfl, by decide, decode_one (by decide) rfl ((run_iv rest (noLock_eq hl) hv).trans (Decoded.ok_congr rfl (len_one ..)))⟩

theorem xorEbGb (p : Pfx) (rm : RM) (g : Reg) : Statement (.xorEbGb p rm g) := by
  intro h n rest
  obtain ⟨hl, hw⟩ := wf_and h
  exact ⟨_, _, rfl, by decide, decode_one (by decide) rfl ((run_rm rest (fun _ _ => rfl) (lockMem_ok hl) hw).trans (Decoded.ok_congr (by simp only [Reg.ofBits_toBits]) (len_one ..)))⟩

theorem xorEvGv (p : Pfx) (rm : RM) (g : Reg) : Statement (.xorEvGv p rm g) := by
  intro h n rest
  obtain ⟨hl, hw⟩ := wf_and h
  exact ⟨_, _, rfl, by decide, decode_one (by decide) rfl ((run_rm rest (fun _ _ => rfl) (lockMem_ok hl) hw).trans (Decoded.ok_congr (by simp only [Reg.ofBits_toBits]) (len_one ..)))⟩

theorem xorGbEb (p : Pfx) (g : Reg) (rm : RM) : Statement (.xorGbEb p g rm) := by
  intro h n rest
  obtain ⟨hl, hw⟩ := wf_and h
  exact ⟨_, _, rfl, by decide, decode_one (by decide) rfl ((run_rm rest (fun _ _ => rfl) (noLock_ok hl) hw).trans (Decoded.ok_congr (by simp only [Reg.ofBits_toBits]) (len_one ..)))⟩

theorem xorGvEv (p : Pfx) (g : Reg) (rm : RM) : Statement (.xorGvEv p g rm) := by
  intro h n rest
  obtain ⟨hl, hw⟩ := wf_and h
  exact ⟨_, _, rfl, by decide, decode_one (by decide) rfl ((run_rm rest (fun _ _ => rfl) (noLock_ok hl) hw).trans (Decoded.ok_congr (by simp only [Reg.ofBits_toBits]) (len_one ..)))⟩

theorem xorAlIb (p : Pfx) (imm : Byte) : Statement (.xorAlIb p imm) := by
  intro hl n rest
  exact ⟨_, _, rfl, by decide, decode_one (by decide) rfl ((run_ib rest (noLock_eq hl)).trans (Decoded.ok_congr rfl rfl))⟩

theorem xorEaxIv (p : Pfx) (imm : Word) : Statement (.xorEaxIv p imm) := by
  intro h n rest
  obtain ⟨hl, hv⟩ := wf_and h
  exact ⟨_, _, rfl, by decide, decode_one (by decide) rfl ((run_iv rest (noLock_eq hl) hv).trans (Decoded.ok_congr rfl (len_one ..)))⟩

theorem cmpEbGb (p : Pfx) (rm : RM) (g : Reg) : Statement (.cmpEbGb p rm g) := by
  intro h n rest
  obtain ⟨hl, hw⟩ := wf_and h
  exact ⟨_, _, rfl, by decide, decode_one (by decide) rfl ((run_rm rest (fun _ _ => rfl) (noLock_ok hl) hw).trans (Decoded.ok_congr (by simp only [Reg.ofBits_toBits]) (len_one ..)))⟩

theorem cmpEvGv (p : Pfx) (rm : RM) (g : Reg) : Statement (.cmpEvGv p rm g) := by
  intro h n rest
  obtain ⟨hl, hw⟩ := wf_and h
  exact ⟨_, _, rfl, by decide, decode_one (by decide) rfl ((run_rm rest (fun _ _ => rfl) (noLock_ok hl) hw).trans (Decoded.ok_congr (by simp only [Reg.ofBits_toBits]) (len_one ..)))⟩

theorem cmpGbEb (p : Pfx) (g : Reg) (rm : RM) : Statement (.cmpGbEb p g rm) := by
  intro h n rest
  obtain ⟨hl, hw⟩ := wf_and h
  exact ⟨_, _, rfl, by decide, decode_one (by decide) rfl ((run_rm rest (fun _ _ => rfl) (noLock_ok hl) hw).trans (Decoded.ok_congr (by simp only [Reg.ofBits_toBits]) (len_one ..)))⟩

theorem cmpGvEv (p : Pfx) (g : Reg) (rm : RM) : Statement (.cmpGvEv p g rm) := by
  intro h n rest
  obtain ⟨hl, hw⟩ := wf_and h
  exact ⟨_, _, rfl, by decide, decode_one (by decide) rfl ((run_rm rest (fun _ _ => rfl) (noLock_ok hl) hw).trans (Decoded.ok_congr (by simp only [Reg.ofBits_toBits]) (len_one ..)))⟩

theorem cmpAlIb (p : Pfx) (imm : Byte) : Statement (.cmpAlIb p imm) := by
  intro hl n rest
  exact ⟨_, _, rfl, by decide, decode_one (by decide) rfl ((run_ib rest (noLock_eq hl)).trans (Decoded.ok_congr rfl rfl))⟩

theorem cmpEaxIv (p : Pfx) (imm : Word) : Statement (.cmpEaxIv p imm) := by
  intro h n rest
  obtain ⟨hl, hv⟩ := wf_and h
  exact ⟨_, _, rfl, by decide, decode_one (by decide) rfl ((run_iv rest (noLock_eq hl) hv).trans (Decoded.ok_congr rfl (len_one ..)))⟩

theorem popSs (p : Pfx) : Statement (.popSs p) := by
  intro hl n rest
  exact ⟨_, _, rfl, by decide, decode_one (by decide) rfl ((run_plain rest (noLock_eq hl)).trans (Decoded.ok_congr rfl rfl))⟩

theorem pushIv (p : Pfx) (imm : Word) : Statement (.pushIv p imm) := by
  intro h n rest
  obtain ⟨hl, hv⟩ := wf_and h
  exact ⟨_, _, rfl, by decide, decode_one (by decide) rfl ((run_iv rest (noLock_eq hl) hv).trans (Decoded.ok_congr rfl (len_one ..)))⟩

theorem imulGvEvIv (p : Pfx) (g : Reg) (rm : RM) (imm : Word) : Statement (.imulGvEvIv p g rm imm) := by
  intro h n rest
  obtain ⟨h, hv⟩ := wf_and h
  obtain ⟨hl, hw⟩ := wf_and h
  exact ⟨_, _, rfl, by decide, decode_one (by decide) rfl ((run_rmIv rest (fun _ _ => rfl) (noLock_ok hl) hw hv).trans (Decoded.ok_congr (by simp only [Reg.ofBits_toBits]) (len_one ..)))⟩

theorem pushIbs (p : Pfx) (imm : Byte) : Statement (.pushIbs p imm) := by
  intro hl n rest
  exact ⟨_, _, rfl, by decide, decode_one (by decide) rfl ((run_ib rest (noLock_eq hl)).trans (Decoded.ok_congr rfl rfl))⟩

theorem imulGvEvIbs (p : Pfx) (g : Reg) (rm : RM) (imm : Byte) : Statement (.imulGvEvIbs p g rm imm) := by
  intro h n rest
  obtain ⟨hl, hw⟩ := wf_and h
  exact ⟨_, _, rfl, by decide, decode_one (by decide) rfl ((run_rmIb rest (fun _ _ => rfl) (noLock_ok hl) hw).trans (Decoded.ok_congr (by simp only [Reg.ofBits_toBits]) (len_one ..)))⟩

theorem testEbGb (p : Pfx) (rm : RM) (g : Reg) : Statement (.testEbGb p rm g) := by
  intro h n rest
  obtain ⟨hl, hw⟩ := wf_and h
  exact ⟨_, _, rfl, by decide, decode_one (by decide) rfl ((run_rm rest (fun _ _ => rfl) (noLock_ok hl) hw).trans (Decoded.ok_congr (by simp only [Reg.ofBits_toBits]) (len_one ..)))⟩

theorem testEvGv (p : Pfx) (rm : RM) (g : Reg) : Statement (.testEvGv p rm g) := by
  intro h n rest
  obtain ⟨hl, hw⟩ := wf_and h
  exact ⟨_, _, rfl, by decide, decode_one (by decide) rfl ((run_rm rest (fun _ _ => rfl) (noLock_ok hl) hw).trans (Decoded.ok_congr (by simp only [Reg.ofBits_toBits]) (len_one ..)))⟩

theorem xchgEbGb (p : Pfx) (rm : RM) (g : Reg) : Statement (.xchgEbGb p rm g) := by
  intro h n rest
  obtain ⟨hl, hw⟩ := wf_and h
  exact ⟨_, _, rfl, by decide, decode_one (by decide) rfl ((run_rm rest (fun _ _ => rfl) (lockMem_ok hl) hw).trans (Decoded.ok_congr (by simp only [Reg.ofBits_toBits]) (len_one ..)))⟩

theorem xchgEvGv (p : Pfx) (rm : RM) (g : Reg) : Statement (.xchgEvGv p rm g) := by
  intro h n rest
  obtain ⟨hl, hw⟩ := wf_and h
  exact ⟨_, _, rfl, by decide, decode_one (by decide) rfl ((run_rm rest (fun _ _ => rfl) (lockMem_ok hl) hw).trans (Decoded.ok_congr (by simp only [Reg.ofBits_toBits]) (len_one ..)))⟩

theorem movEbGb (p : Pfx) (rm : RM) (g : Reg) : Statement (.movEbGb p rm g) := by
  intro h n rest
  obtain ⟨hl, hw⟩ := wf_and h
  exact ⟨_, _, rfl, by decide, decode_one (by decide) rfl ((run_rm rest (fun _ _ => rfl) (noLock_ok hl) hw).trans (Decoded.ok_congr (by simp only [Reg.ofBits_toBits]) (len_one ..)))⟩

theorem movEvGv (p : Pfx) (rm : RM) (g : Reg) : Statement (.movEvGv p rm g) := by
  intro h n rest
  obtain ⟨hl, hw⟩ := wf_and h
  exact ⟨_, _, rfl, by decide, decode_one (by decide) rfl ((run_rm rest (fun _ _ => rfl) (noLock_ok hl) hw).trans (Decoded.ok_congr (by simp only [Reg.ofBits_toBits]) (len_one ..)))⟩

theorem movGbEb (p : Pfx) (g : Reg) (rm : RM) : Statement (.movGbEb p g rm) := by
  intro h n rest
  obtain ⟨hl, hw⟩ := wf_and h
  exact ⟨_, _, rfl, by decide, decode_one (by decide) rfl ((run_rm rest (fun _ _ => rfl) (noLock_ok hl) hw).trans (Decoded.ok_congr (by simp only [Reg.ofBits_toBits]) (len_one ..)))⟩

theorem movGvEv (p : Pfx) (g : Reg) (rm : RM) : Statement (.movGvEv p g rm) := by
  intro h n rest
  obtain ⟨hl, hw⟩ := wf_and h
  exact ⟨_, _, rfl, by decide, decode_one (by decide) rfl ((run_rm rest (fun _ _ => rfl) (noLock_ok hl) hw).trans (Decoded.ok_congr (by simp only [Reg.ofBits_toBits]) (len_one ..)))⟩

theorem movEwSreg (p : Pfx) (rm : RM) (sr : Seg) : Statement (.movEwSreg p rm sr) := by
  intro h n rest
  obtain ⟨hl, hw⟩ := wf_and h
  cases sr
  all_goals
    exact ⟨_, _, rfl, by decide, decode_one (by decide) rfl ((run_rm rest (fun _ _ => rfl) (noLock_ok hl) hw).trans (Decoded.ok_congr rfl (len_one ..)))⟩

theorem leaGvM (p : Pfx) (g : Reg) (m : MemOp) : Statement (.leaGvM p g m) := by
  intro h n rest
  obtain ⟨hl, hw⟩ := wf_and h
  exact ⟨_, _, rfl, by decide, decode_one (by decide) rfl ((run_mem rest (fun _ => rfl) (.inl (noLock_eq hl)) hw).trans (Decoded.ok_congr (by simp only [Reg.ofBits_toBits]) (len_one ..)))⟩

theorem movSregEw (p : Pfx) (sr : Seg) (rm : RM) : Statement (.movSregEw p sr rm) := by
  intro h n rest
  obtain ⟨h, hx⟩ := wf_and h
  obtain ⟨hl, hw⟩ := wf_and h
  cases sr <;> first | (exact absurd hx (by decide)) | skip
  all_goals
    exact ⟨_, _, rfl, by decide, decode_one (by decide) rfl ((run_rm rest (fun _ _ => rfl) (noLock_ok hl) hw).trans (Decoded.ok_congr rfl (len_one ..)))⟩

theorem nop (p : Pfx) : Statement (.nop p) := by
  intro hl n rest
  exact ⟨_, _, rfl, by decide, decode_one (by decide) rfl ((run_plain rest (noLock_eq hl)).trans (Decoded.ok_congr rfl rfl))⟩

theorem cbw (p : Pfx) : Statement (.cbw p) := by
  intro hl n rest
  exact ⟨_, _, rfl, by decide, decode_one (by decide) rfl ((run_plain rest (noLock_eq hl)).trans (Decoded.ok_congr rfl rfl))⟩

theorem cwd (p : Pfx) : Statement (.cwd p) := by
  intro hl n rest
  exact ⟨_, _, rfl, by decide, decode_one (by decide) rfl ((run_plain rest (noLock_eq hl)).trans (Decoded.ok_congr rfl rfl))⟩

theorem fwait (p : Pfx) : Statement (.fwait p) := by
  intro hl n rest
  exact ⟨_, _, rfl, by decide, decode_one (by decide) rfl ((run_plain rest (noLock_eq hl)).trans (Decoded.ok_congr rfl rfl))⟩

theorem pushf (p : Pfx) : Statement (.pushf p) := by
  intro hl n rest
  exact ⟨_, _, rfl, by decide, decode_one (by decide) rfl ((run_plain rest (noLock_eq hl)).trans (Decoded.ok_congr rfl rfl))⟩

theorem popf (p : Pfx) : Statement (.popf p) := by
  intro hl n rest
  exact ⟨_, _, rfl, by decide, decode_one (by decide) rfl ((run_plain rest (noLock_eq hl)).trans (Decoded.ok_congr rfl rfl))⟩

theorem movAlMoffs (p : Pfx) (imm : Word) : Statement (.movAlMoffs p imm) := by
  intro h n rest
  obtain ⟨hl, hv⟩ := wf_and h
  exact ⟨_, _, rfl, by decide, decode_one (by decide) rfl ((run_moffs rest (noLock_eq hl) hv).trans (Decoded.ok_congr rfl (len_one ..)))⟩

theorem movEaxMoffs (p : Pfx) (imm : Word) : Statement (.movEaxMoffs p imm) := by
  intro h n rest
  obtain ⟨hl, hv⟩ := wf_and h
  exact ⟨_, _, rfl, by decide, decode_one (by decide) rfl ((run_moffs rest (noLock_eq hl) hv).trans (Decoded.ok_congr rfl (len_one ..)))⟩

theorem movMoffsAl (p : Pfx) (imm : Word) : Statement (.movMoffsAl p imm) := by
  intro h n rest
  obtain ⟨hl, hv⟩ := wf_and h
  exact ⟨_, _, rfl, by decide, decode_one (by decide) rfl ((run_moffs rest (noLock_eq hl) hv).trans (Decoded.ok_congr rfl (len_one ..)))⟩

theorem movMoffsEax (p : Pfx) (imm : Word) : Statement (.movMoffsEax p imm) := by
  intro h n rest
  obtain ⟨hl, hv⟩ := wf_and h
  exact ⟨_, _, rfl, by decide, decode_one (by decide) rfl ((run_moffs rest (noLock_eq hl) hv).trans (Decoded.ok_congr rfl (len_one ..)))⟩

theorem testAlIb (p : Pfx) (imm : Byte) : Statement (.testAlIb p imm) := by
  intro hl n rest
  exact ⟨_, _, rfl, by decide, decode_one (by decide) rfl ((run_ib rest (noLock_eq hl)).trans (Decoded.ok_congr rfl rfl))⟩

theorem testEaxIv (p : Pfx) (imm : Word) : Statement (.testEaxIv p imm) := by
  intro h n rest
  obtain ⟨hl, hv⟩ := wf_and h
  exact ⟨_, _, rfl, by decide, decode_one (by decide) rfl ((run_iv rest (noLock_eq hl) hv).trans (Decoded.ok_congr rfl (len_one ..)))⟩

theorem retIw (p : Pfx) (imm : Half) : Statement (.retIw p imm) := by
  intro hl n rest
  exact ⟨_, _, rfl, by decide, decode_one (by decide) rfl ((run_iw rest (noLock_eq hl)).trans (Decoded.ok_congr rfl rfl))⟩

theorem ret (p : Pfx) : Statement (.ret p) := by
  intro hl n rest
  exact ⟨_, _, rfl, by decide, decode_one (by decide) rfl ((run_plain rest (noLock_eq hl)).trans (Decoded.ok_congr rfl rfl))⟩

theorem int3 (p : Pfx) : Statement (.int3 p) := by
  intro hl n rest
  exact ⟨_, _, rfl, by decide, decode_one (by decide) rfl ((run_plain rest (noLock_eq hl)).trans (Decoded.ok_congr rfl rfl))⟩

theorem intIb (p : Pfx) (imm : Byte) : Statement (.intIb p imm) := by
  intro hl n rest
  exact ⟨_, _, rfl, by decide, decode_one (by decide) rfl ((run_ib rest (noLock_eq hl)).trans (Decoded.ok_congr rfl rfl))⟩

theorem iret (p : Pfx) : Statement (.iret p) := by
  intro hl n rest
  exact ⟨_, _, rfl, by decide, decode_one (by decide) rfl ((run_plain rest (noLock_eq hl)).trans (Decoded.ok_congr rfl rfl))⟩

theorem loopneRel8 (p : Pfx) (imm : Byte) : Statement (.loopneRel8 p imm) := by
  intro hl n rest
  exact ⟨_, _, rfl, by decide, decode_one (by decide) rfl ((run_ib rest (noLock_eq hl)).trans (Decoded.ok_congr rfl rfl))⟩

theorem loopeRel8 (p : Pfx) (imm : Byte) : Statement (.loopeRel8 p imm) := by
  intro hl n rest
  exact ⟨_, _, rfl, by decide, decode_one (by decide) rfl ((run_ib rest (noLock_eq hl)).trans (Decoded.ok_congr rfl rfl))⟩

theorem loopRel8 (p : Pfx) (imm : Byte) : Statement (.loopRel8 p imm) := by
  intro hl n rest
  exact ⟨_, _, rfl, by decide, decode_one (by decide) rfl ((run_ib rest (noLock_eq hl)).trans (Decoded.ok_congr rfl rfl))⟩

theorem jcxzRel8 (p : Pfx) (imm : Byte) : Statement (.jcxzRel8 p imm) := by
  intro hl n rest
  exact ⟨_, _, rfl, by decide, decode_one (by decide) rfl ((run_ib rest (noLock_eq hl)).trans (Decoded.ok_congr rfl rfl))⟩

theorem inAlIb (p : Pfx) (imm : Byte) : Statement (.inAlIb p imm) := by
  intro hl n rest
  exact ⟨_, _, rfl, by decide, decode_one (by decide) rfl ((run_ib rest (noLock_eq hl)).trans (Decoded.ok_congr rfl rfl))⟩

theorem inEaxIb (p : Pfx) (imm : Byte) : Statement (.inEaxIb p imm) := by
  intro hl n rest
  exact ⟨_, _, rfl, by decide, decode_one (by decide) rfl ((run_ib rest (noLock_eq hl)).trans (Decoded.ok_congr rfl rfl))⟩

theorem outIbAl (p : Pfx) (imm : Byte) : Statement (.outIbAl p imm) := by
  intro hl n rest
  exact ⟨_, _, rfl, by decide, decode_one (by decide) rfl ((run_ib rest (noLock_eq hl)).trans (Decoded.ok_congr rfl rfl))⟩

theorem outIbEax (p : Pfx) (imm : Byte) : Statement (.outIbEax p imm) := by
  intro hl n rest
  exact ⟨_, _, rfl, by decide, decode_one (by decide) rfl ((run_ib rest (noLock_eq hl)).trans (Decoded.ok_congr rfl rfl))⟩

theorem callRelv (p : Pfx) (imm : Word) : Statement (.callRelv p imm) := by
  intro h n rest
  obtain ⟨hl, hv⟩ := wf_and h
  exact ⟨_, _, rfl, by decide, decode_one (by decide) rfl ((run_iv rest (noLock_eq hl) hv).trans (Decoded.ok_congr rfl (len_one ..)))⟩

theorem jmpRelv (p : Pfx) (imm : Word) : Statement (.jmpRelv p imm) := by
  intro h n rest
  obtain ⟨hl, hv⟩ := wf_and h
  exact ⟨_, _, rfl, by decide, decode_one (by decide) rfl ((run_iv rest (noLock_eq hl) hv).trans (Decoded.ok_congr rfl (len_one ..)))⟩

theorem jmpPtr (p : Pfx) (off : Word) (sel : Half) : Statement (.jmpPtr p off sel) := by
  intro h n rest
  obtain ⟨hl, hv⟩ := wf_and h
  exact ⟨_, _, rfl, by decide, decode_one (by decide) rfl ((run_ptr rest (noLock_eq hl) hv).trans (Decoded.ok_congr rfl (len_one ..)))⟩

theorem jmpRel8 (p : Pfx) (imm : Byte) : Statement (.jmpRel8 p imm) := by
  intro hl n rest
  exact ⟨_, _, rfl, by decide, decode_one (by decide) rfl ((run_ib rest (noLock_eq hl)).trans (Decoded.ok_congr rfl rfl))⟩

theorem inAlDx (p : Pfx) : Statement (.inAlDx p) := by
  intro hl n rest
  exact ⟨_, _, rfl, by decide, decode_one (by decide) rfl ((run_plain rest (noLock_eq hl)).trans (Decoded.ok_congr rfl rfl))⟩

theorem inEaxDx (p : Pfx) : Statement (.inEaxDx p) := by
  intro hl n rest
  exact ⟨_, _, rfl, by decide, decode_one (by decide) rfl ((run_plain rest (noLock_eq hl)).trans (Decoded.ok_congr rfl rfl))⟩

theorem outDxAl (p : Pfx) : Statement (.outDxAl p) := by
  intro hl n rest
  exact ⟨_, _, rfl, by decide, decode_one (by decide) rfl ((run_plain rest (noLock_eq hl)).trans (Decoded.ok_congr rfl rfl))⟩

theorem outDxEax (p : Pfx) : Statement (.outDxEax p) := by
  intro hl n rest
  exact ⟨_, _, rfl, by decide, decode_one (by decide) rfl ((run_plain rest (noLock_eq hl)).trans (Decoded.ok_congr rfl rfl))⟩

theorem hlt (p : Pfx) : Statement (.hlt p) := by
  intro hl n rest
  exact ⟨_, _, rfl, by decide, decode_one (by decide) rfl ((run_plain rest (noLock_eq hl)).trans (Decoded.ok_congr rfl rfl))⟩

theorem cli (p : Pfx) : Statement (.cli p) := by
  intro hl n rest
  exact ⟨_, _, rfl, by decide, decode_one (by decide) rfl ((run_plain rest (noLock_eq hl)).trans (Decoded.ok_congr rfl rfl))⟩

theorem sti (p : Pfx) : Statement (.sti p) := by
  intro hl n rest
  exact ⟨_, _, rfl, by decide, decode_one (by decide) rfl ((run_plain rest (noLock_eq hl)).trans (Decoded.ok_congr rfl rfl))⟩

theorem invd (p : Pfx) : Statement (.invd p) := by
  intro hl n rest
  exact ⟨_, _, rfl, by decide, decode_two rfl ((run_plain rest (noLock_eq hl)).trans (Decoded.ok_congr rfl rfl))⟩

theorem wbinvd (p : Pfx) : Statement (.wbinvd p) := by
  intro hl n rest
  exact ⟨_, _, rfl, by decide, decode_two rfl ((run_plain rest (noLock_eq hl)).trans (Decoded.ok_congr rfl rfl))⟩

theorem movRDr (p : Pfx) (r : Reg) (n : BitVec 3) : Statement (.movRDr p r n) := by
  intro hl n rest
  exact ⟨_, _, rfl, by decide, decode_two rfl ((run_bare_fields rest rfl (noLock_eq hl)).trans (Decoded.ok_congr (by simp only [Reg.ofBits_toBits]) rfl))⟩

theorem movDrR (p : Pfx) (n : BitVec 3) (r : Reg) : Statement (.movDrR p n r) := by
  intro hl n rest
  exact ⟨_, _, rfl, by decide, decode_two rfl ((run_bare_fields rest rfl (noLock_eq hl)).trans (Decoded.ok_congr (by simp only [Reg.ofBits_toBits]) rfl))⟩

theorem wrmsr (p : Pfx) : Statement (.wrmsr p) := by
  intro hl n rest
  exact ⟨_, _, rfl, by decide, decode_two rfl ((run_plain rest (noLock_eq hl)).trans (Decoded.ok_congr rfl rfl))⟩

theorem rdtsc (p : Pfx) : Statement (.rdtsc p) := by
  intro hl n rest
  exact ⟨_, _, rfl, by decide, decode_two rfl ((run_plain rest (noLock_eq hl)).trans (Decoded.ok_congr rfl rfl))⟩

theorem rdmsr (p : Pfx) : Statement (.rdmsr p) := by
  intro hl n rest
  exact ⟨_, _, rfl, by decide, decode_two rfl ((run_plain rest (noLock_eq hl)).trans (Decoded.ok_congr rfl rfl))⟩

theorem cpuid (p : Pfx) : Statement (.cpuid p) := by
  intro hl n rest
  exact ⟨_, _, rfl, by decide, decode_two rfl ((run_plain rest (noLock_eq hl)).trans (Decoded.ok_congr rfl rfl))⟩

theorem btEvGv (p : Pfx) (rm : RM) (g : Reg) : Statement (.btEvGv p rm g) := by
  intro h n rest
  obtain ⟨hl, hw⟩ := wf_and h
  exact ⟨_, _, rfl, by decide, decode_two rfl ((run_rm rest (fun _ _ => rfl) (lockMem_ok hl) hw).trans (Decoded.ok_congr (by simp only [Reg.ofBits_toBits]) (len_two ..)))⟩

theorem shldEvGvIb (p : Pfx) (rm : RM) (g : Reg) (imm : Byte) : Statement (.shldEvGvIb p rm g imm) := by
  intro h n rest
  obtain ⟨hl, hw⟩ := wf_and h
  exact ⟨_, _, rfl, by decide, decode_two rfl ((run_rmIb rest (fun _ _ => rfl) (noLock_ok hl) hw).trans (Decoded.ok_congr (by simp only [Reg.ofBits_toBits]) (len_two ..)))⟩

theorem shldEvGvCl (p : Pfx) (rm : RM) (g : Reg) : Statement (.shldEvGvCl p rm g) := by
  intro h n rest
  obtain ⟨hl, hw⟩ := wf_and h
  exact ⟨_, _, rfl, by decide, decode_two rfl ((run_rm rest (fun _ _ => rfl) (noLock_ok hl) hw).trans (Decoded.ok_congr (by simp only [Reg.ofBits_toBits]) (len_two ..)))⟩

theorem rsm (p : Pfx) : Statement (.rsm p) := by
  intro hl n rest
  exact ⟨_, _, rfl, by decide, decode_two rfl ((run_plain rest (noLock_eq hl)).trans (Decoded.ok_congr rfl rfl))⟩

theorem btsEvGv (p : Pfx) (rm : RM) (g : Reg) : Statement (.btsEvGv p rm g) := by
  intro h n rest
  obtain ⟨hl, hw⟩ := wf_and h
  exact ⟨_, _, rfl, by decide, decode_two rfl ((run_rm rest (fun _ _ => rfl) (lockMem_ok hl) hw).trans (Decoded.ok_congr (by simp only [Reg.ofBits_toBits]) (len_two ..)))⟩

theorem shrdEvGvIb (p : Pfx) (rm : RM) (g : Reg) (imm : Byte) : Statement (.shrdEvGvIb p rm g imm) := by
  intro h n rest
  obtain ⟨hl, hw⟩ := wf_and h
  exact ⟨_, _, rfl, by decide, decode_two rfl ((run_rmIb rest (fun _ _ => rfl) (noLock_ok hl) hw).trans (Decoded.ok_congr (by simp only [Reg.ofBits_toBits]) (len_two ..)))⟩

theorem shrdEvGvCl (p : Pfx) (rm : RM) (g : Reg) : Statement (.shrdEvGvCl p rm g) := by
  intro h n rest
  obtain ⟨hl, hw⟩ := wf_and h
  exact ⟨_, _, rfl, by decide, decode_two rfl ((run_rm rest (fun _ _ => rfl) (noLock_ok hl) hw).trans (Decoded.ok_congr (by simp only [Reg.ofBits_toBits]) (len_two ..)))⟩

theorem imulGvEv (p : Pfx) (g : Reg) (rm : RM) : Statement (.imulGvEv p g rm) := by
  intro h n rest
  obtain ⟨hl, hw⟩ := wf_and h
  exact ⟨_, _, rfl, by decide, decode_two rfl ((run_rm rest (fun _ _ => rfl) (noLock_ok hl) hw).trans (Decoded.ok_congr (by simp only [Reg.ofBits_toBits]) (len_two ..)))⟩

theorem btrEvGv (p : Pfx) (rm : RM) (g : Reg) : Statement (.btrEvGv p rm g) := by
  intro h n rest
  obtain ⟨hl, hw⟩ := wf_and h
  exact ⟨_, _, rfl, by decide, decode_two rfl ((run_rm rest (fun _ _ => rfl) (lockMem_ok hl) hw).trans (Decoded.ok_congr (by simp only [Reg.ofBits_toBits]) (len_two ..)))⟩

theorem movzxGvEb (p : Pfx) (g : Reg) (rm : RM) : Statement (.movzxGvEb p g rm) := by
  intro h n rest
  obtain ⟨hl, hw⟩ := wf_and h
  exact ⟨_, _, rfl, by decide, decode_two rfl ((run_rm rest (fun _ _ => rfl) (noLock_ok hl) hw).trans (Decoded.ok_congr (by simp only [Reg.ofBits_toBits]) (len_two ..)))⟩

theorem movzxGvEw (p : Pfx) (g : Reg) (rm : RM) : Statement (.movzxGvEw p g rm) := by
  intro h n rest
  obtain ⟨hl, hw⟩ := wf_and h
  exact ⟨_, _, rfl, by decide, decode_two rfl ((run_rm rest (fun _ _ => rfl) (noLock_ok hl) hw).trans (Decoded.ok_congr (by simp only [Reg.ofBits_toBits]) (len_two ..)))⟩

theorem btcEvGv (p : Pfx) (rm : RM) (g : Reg) : Statement (.btcEvGv p rm g) := by
  intro h n rest
  obtain ⟨hl, hw⟩ := wf_and h
  exact ⟨_, _, rfl, by decide, decode_two rfl ((run_rm rest (fun _ _ => rfl) (lockMem_ok hl) hw).trans (Decoded.ok_congr (by simp only [Reg.ofBits_toBits]) (len_two ..)))⟩

theorem bsfGvEv (p : Pfx) (g : Reg) (rm : RM) : Statement (.bsfGvEv p g rm) := by
  intro h n rest
  obtain ⟨hl, hw⟩ := wf_and h
  exact ⟨_, _, rfl, by decide, decode_two rfl ((run_rm rest (fun _ _ => rfl) (noLock_ok hl) hw).trans (Decoded.ok_congr (by simp only [Reg.ofBits_toBits]) (len_two ..)))⟩

theorem bsrGvEv (p : Pfx) (g : Reg) (rm : RM) : Statement (.bsrGvEv p g rm) := by
  intro h n rest
  obtain ⟨hl, hw⟩ := wf_and h
  exact ⟨_, _, rfl, by decide, decode_two rfl ((run_rm rest (fun _ _ => rfl) (noLock_ok hl) hw).trans (Decoded.ok_congr (by simp only [Reg.ofBits_toBits]) (len_two ..)))⟩

theorem movsxGvEb (p : Pfx) (g : Reg) (rm : RM) : Statement (.movsxGvEb p g rm) := by
  intro h n rest
  obtain ⟨hl, hw⟩ := wf_and h
  exact ⟨_, _, rfl, by decide, decode_two rfl ((run_rm rest (fun _ _ => rfl) (noLock_ok hl) hw).trans (Decoded.ok_congr (by simp only [Reg.ofBits_toBits]) (len_two ..)))⟩

theorem movsxGvEw (p : Pfx) (g : Reg) (rm : RM) : Statement (.movsxGvEw p g rm) := by
  intro h n rest
  obtain ⟨hl, hw⟩ := wf_and h
  exact ⟨_, _, rfl, by decide, decode_two rfl ((run_rm rest (fun _ _ => rfl) (noLock_ok hl) hw).trans (Decoded.ok_congr (by simp only [Reg.ofBits_toBits]) (len_two ..)))⟩

theorem illegal0FFF (p : Pfx) : Statement (.illegal0FFF p) := by
  intro hl n rest
  exact ⟨_, _, rfl, by decide, decode_two rfl ((run_plain rest (noLock_eq hl)).trans (Decoded.ok_congr rfl rfl))⟩

theorem incR (p : Pfx) (r : Reg) : Statement (.incR p r) := by
  intro hl n rest
  cases r
  all_goals
    exact ⟨_, _, rfl, by decide, decode_one (by decide) rfl ((run_plain rest (noLock_eq hl)).trans (Decoded.ok_congr rfl rfl))⟩

theorem decR (p : Pfx) (r : Reg) : Statement (.decR p r) := by
  intro hl n rest
  cases r
  all_goals
    exact ⟨_, _, rfl, by decide, decode_one (by decide) rfl ((run_plain rest (noLock_eq hl)).trans (Decoded.ok_congr rfl rfl))⟩

theorem pushR (p : Pfx) (r : Reg) : Statement (.pushR p r) := by
  intro hl n rest
  cases r
  all_goals
    exact ⟨_, _, rfl, by decide, decode_one (by decide) rfl ((run_plain rest (noLock_eq hl)).trans (Decoded.ok_congr rfl rfl))⟩

theorem popR (p : Pfx) (r : Reg) : Statement (.popR p r) := by
  intro hl n rest
  cases r
  all_goals
    exact ⟨_, _, rfl, by decide, decode_one (by decide) rfl ((run_plain rest (noLock_eq hl)).trans (Decoded.ok_congr rfl rfl))⟩

theorem xchgEaxR (p : Pfx) (r : Reg) : Statement (.xchgEaxR p r) := by
  intro h n rest
  obtain ⟨hl, hx⟩ := wf_and h
  cases r <;> first | (exact absurd hx (by decide)) | skip
  all_goals
    exact ⟨_, _, rfl, by decide, decode_one (by decide) rfl ((run_plain rest (noLock_eq hl)).trans (Decoded.ok_congr rfl rfl))⟩

theorem movR8Ib (p : Pfx) (r : Reg) (imm : Byte) : Statement (.movR8Ib p r imm) := by
  intro hl n rest
  cases r
  all_goals
    exact ⟨_, _, rfl, by decide, decode_one (by decide) rfl ((run_ib rest (noLock_eq hl)).trans (Decoded.ok_congr rfl rfl))⟩

theorem movRIv (p : Pfx) (r : Reg) (imm : Word) : Statement (.movRIv p r imm) := by
  intro h n rest
  obtain ⟨hl, hv⟩ := wf_and h
  cases r
  all_goals
    exact ⟨_, _, rfl, by decide, decode_one (by decide) rfl ((run_iv rest (noLock_eq hl) hv).trans (Decoded.ok_congr rfl (len_one ..)))⟩

theorem bswapR (p : Pfx) (r : Reg) : Statement (.bswapR p r) := by
  intro hl n rest
  cases r
  all_goals
    exact ⟨_, _, rfl, by decide, decode_two rfl ((run_plain rest (noLock_eq hl)).trans (Decoded.ok_congr rfl rfl))⟩

theorem jccRel8 (p : Pfx) (cc : Cond) (imm : Byte) : Statement (.jccRel8 p cc imm) := by
  intro hl n rest
  cases cc
  all_goals
    exact ⟨_, _, rfl, by decide, decode_one (by decide) rfl ((run_ib rest (noLock_eq hl)).trans (Decoded.ok_congr rfl rfl))⟩

theorem jccRelv (p : Pfx) (cc : Cond) (imm : Word) : Statement (.jccRelv p cc imm) := by
  intro h n rest
  obtain ⟨hl, hv⟩ := wf_and h
  cases cc
  all_goals
    exact ⟨_, _, rfl, by decide, decode_two rfl ((run_iv rest (noLock_eq hl) hv).trans (Decoded.ok_congr rfl (len_two ..)))⟩

theorem setccEb (p : Pfx) (cc : Cond) (rm : RM) : Statement (.setccEb p cc rm) := by
  intro h n rest
  obtain ⟨hl, hw⟩ := wf_and h
  cases cc
  all_goals
    exact ⟨_, _, rfl, by decide, decode_two rfl ((run_rm rest (fun _ _ => rfl) (noLock_ok hl) hw).trans (Decoded.ok_congr rfl (len_two ..)))⟩

end Sys2Proof.Laws.Encoding
end

