-- ==== Sys2Proof/Machine/Environment.lean ====
section
/-! DEFINITION. What the outside world can do to the machine between two steps: the interrupt inputs, the other inputs,
inquire cycles and other bus masters, bus errors, RESET, the clock, and the test access port. `step` never calls these. -/
namespace Sys2Proof.Machine

open Sys2Proof

/-! ### Inputs -/

/-- CLK is stopped: no input is sampled and no edge is latched (R750). -/
def State.deaf (s : State) : Bool :=
  match s.clock with
  | .stopClock _ => true
  | .normal => false
  | .halt => false
  | .shutdown => false
  | .stopGrant _ => false
  | .stopGrantInquire _ => false

/-- An input acts unless CLK is stopped. -/
def State.sampled (s : State) (f : State → State) : State := if s.deaf then s else f s

/-- The edge of an interrupt input sets its latch. DESIGN CHOICE (log 55): while PRDY is asserted it does so too, as R860 has it of all
four, which R653 names normative; R656, R658 and R780 say that INIT and NMI are not sampled then. -/
def latchEdge (set : Intr → Intr) (s : State) : State := s.sampled fun s => s.setIntr (set s.intr)

/-- A falling edge of FLUSH# (R60, R661). -/
def edgeFlush (s : State) : State := latchEdge (fun i => { i with flush := true }) s
/-- A falling edge of SMI# (R701). -/
def edgeSmi (s : State) : State := latchEdge (fun i => { i with smi := true }) s
/-- A rising edge of INIT (R656). -/
def edgeInit (s : State) : State := latchEdge (fun i => { i with init := true }) s
/-- A rising edge of NMI (R658). -/
def edgeNmi (s : State) : State := latchEdge (fun i => { i with nmi := true }) s

/-- Leave the Hardware Debug Tool mode (R860). -/
def leaveHdt (s : State) : State := s.setTest { s.test with hdt := false, hdtByTap := false }

/-- AHOLD, BOFF# or HOLD asserted in Stop Grant starts the internal clock (R745). -/
def holdClock (s : State) : Clock → Clock
  | .stopGrant f => if s.busHeld then .stopGrantInquire (.grant f) else .stopGrant f
  | .normal => .normal
  | .halt => .halt
  | .shutdown => .shutdown
  | .stopGrantInquire f => .stopGrantInquire f
  | .stopClock f => .stopClock f

/-- Drive the level-sensitive inputs (R67, R68, R661). A Low-to-High transition of R/S# ends HDT mode (R860), a rising INIT is an
edge (R656), EWBE# asserted ends the wait for it (R147), IGNNE# is remembered as it was sampled before (R590). DESIGN CHOICE (log
37): the rise of R/S# ends HDT mode also where USEHDT is the current TAP instruction, as one of the sentences of R860 has it. -/
def drivePins (p : Pins) (s : State) : State := s.sampled fun s =>
  let t := s.setPins p
  let t := if s.pins.rs && !p.rs then leaveHdt t else t
  let t := if p.init && !s.pins.init then edgeInit t else t
  let t := t.setBiu { t.biu with ewbeWait := t.biu.ewbeWait && !p.ewbe, ignne := s.ignne }
  if s.busHeld then t else t.setClock (holdClock t t.clock)

/-! ### Outputs -/

/-- The outputs and bidirectional signals (R182). -/
inductive OutPin
  | address | ads | adsc | ap | be | cache | dc | data | dp | lock | mio | pcd | pwt | scyc | wr
  | apchk | breq | ferr | hit | hitm | hlda | ierr | pchk | prdy | smiact | tdo
  deriving DecidableEq, Repr

/-- The output is asserted Low (R182). -/
def OutPin.activeLow : OutPin → Bool
  | .ads => true | .adsc => true | .be => true | .cache => true | .lock => true | .apchk => true | .ferr => true | .hit => true
  | .hitm => true | .ierr => true | .pchk => true | .smiact => true
  | .address => false | .ap => false | .dc => false | .data => false | .dp => false | .mio => false | .pcd => false
  | .pwt => false | .scyc => false | .wr => false | .breq => false | .hlda => false | .prdy => false | .tdo => false

/-- The level that ALL1 and ALL0 force every output and bidirectional signal to, but for that of the test port itself (R873). -/
def State.forcedLevel (s : State) (p : OutPin) : Option Bool :=
  if p = .tdo then none
  else if s.test.tap.ir = 0b00100 then some true
  else if s.test.tap.ir = 0b00101 then some false
  else none

/-- An output is seen asserted: as the processor drives it, unless the test port forces its level (R873). -/
def State.seen (s : State) (p : OutPin) (asserted : Bool) : Bool :=
  match s.forcedLevel p with
  | none => asserted
  | some high => high != p.activeLow

/-- The processor answers HOLD, at a boundary, where no cycle and no locked operation is in progress (R233). -/
def State.granted (s : State) : Bool := s.pins.hold && !s.deaf && !s.biu.hung

/-- FERR# is asserted (R590). -/
def State.ferr (s : State) : Bool := s.seen .ferr (!s.fpSilent && s.fpu.sw.es && !(!s.ne && s.ignne))
/-- SMIACT# is asserted (R62); it is not driven in Stop Clock (R705, R750). -/
def State.smiact (s : State) : Bool := s.seen .smiact (s.smm.active && !s.deaf)
/-- PRDY (R861): not driven in Stop Clock and while INIT is asserted. -/
def State.prdy (s : State) : Bool := s.seen .prdy (s.test.hdt && !s.deaf && !s.pins.init)
/-- HLDA (R233). -/
def State.hlda (s : State) : Bool := s.seen .hlda s.granted
/-- BREQ in the last step (R234): in the first clock of what it drove, in the low-power states too, or while it lacks the bus; with
INIT asserted or CLK stopped low, unless a writeback waits. -/
def State.breq (s : State) : Bool :=
  s.seen .breq (s.biu.writeback.isSome || (s.biu.want && !s.pins.init && !s.deaf))
/-- HIT# is asserted (R237). -/
def State.hitOut (s : State) : Bool := s.seen .hit s.cache.hit
/-- HITM# is asserted (R237). -/
def State.hitmOut (s : State) : Bool := s.seen .hitm s.cache.hitm
/-- PCHK#, APCHK# and IERR# of the last step (R212, R213, R217). -/
def State.checks (s : State) : Bool × Bool × Bool :=
  (s.seen .pchk s.biu.pchk, s.seen .apchk s.cache.apchk, s.seen .ierr s.biu.ierr)
/-- The cycles of the last step, in bus order (R191). -/
def State.cycles (s : State) : List Cycle := s.cache.events.reverse.filterMap CacheEvent.toCycle

/-- The bit that makes the parity of `w` even (R212, R213). -/
def parityBit {w : Nat} (v : BitVec w) : Bool := (List.range w).foldl (fun p i => p != v.getLsbD i) false
/-- AP, over A31-A5 (R212). -/
def Cycle.ap (c : Cycle) : Bool := parityBit (c.addr.extractLsb' 5 27)
/-- DP for each byte that moves (R213). -/
def Cycle.dp (c : Cycle) : List Bool := c.data.map fun b => parityBit b

/-- The set that floats on BOFF# and with HLDA (R235). -/
def OutPin.ofBus : OutPin → Bool
  | .address => true | .ads => true | .adsc => true | .ap => true | .be => true | .cache => true | .dc => true
  | .data => true | .dp => true | .lock => true | .mio => true | .pcd => true | .pwt => true | .scyc => true | .wr => true
  | .apchk => false | .breq => false | .ferr => false | .hit => false | .hitm => false | .hlda => false | .ierr => false
  | .pchk => false | .prdy => false | .smiact => false | .tdo => false

/-- The data bus floats in the low-power states (R235, R742). -/
def Clock.floatsData : Clock → Bool
  | .halt => true
  | .stopGrant _ => true
  | .stopClock _ => true
  | .normal => false
  | .shutdown => false
  | .stopGrantInquire _ => false

/-- A pin is floated (R235, R775, R855, R870, R873). -/
def State.floated (s : State) (p : OutPin) : Bool :=
  s.test.floatTest || (p == .tdo && (s.test.tap.tdo.isNone || s.pins.init)) || (p != .tdo && s.test.tap.ir == 0b00011)
    || (s.test.frcChecker && !s.test.hdt && p != .tdo && p != .ierr)
    || ((s.pins.boff || s.granted) && p.ofBus) || (s.pins.ahold && (p == .address || p == .ap))
    || (s.clock.floatsData && (p == .data || p == .dp))

/-- What the processor would drive in a step, as a checker compares it (R855). -/
structure Outputs where
  cycles : List Cycle
  ferr : Bool
  smiact : Bool
  prdy : Bool
  hlda : Bool
  breq : Bool
  hit : Bool
  hitm : Bool
  pchk : Bool
  apchk : Bool
  deriving DecidableEq, Repr

/-- The outputs of the last step. -/
def State.outputs (s : State) : Outputs :=
  { cycles := s.cycles, ferr := s.ferr, smiact := s.smiact, prdy := s.prdy, hlda := s.hlda, breq := s.breq, hit := s.hitOut,
    hitm := s.hitmOut, pchk := s.checks.1, apchk := s.checks.2.1 }

/-- A checker samples what the master drove in the step and asserts IERR# on a mismatch (R217, R855). -/
def frcCompare (master : Outputs) (s : State) : State :=
  if s.test.frcChecker && !s.test.hdt then s.setBiu { s.biu with ierr := decide (master ≠ s.outputs) } else s

/-! ### Inquire cycles and other masters -/

/-- The answer to an inquire cycle: HIT#, HITM#, APCHK#, and the state after it (R139, R212, R237). -/
structure Inquiry where
  hit : Bool
  hitm : Bool
  apchk : Bool
  st : State

/-- An inquire cycle in Halt, Shutdown or Stop Grant passes through Stop Grant Inquire (R740, R745). -/
def inquireClock : Clock → Clock
  | .halt => .stopGrantInquire .halt
  | .stopGrant f => .stopGrantInquire (.grant f)
  | .normal => .normal
  | .shutdown => .stopGrantInquire .shutdown
  | .stopGrantInquire f => .stopGrantInquire f
  | .stopClock f => .stopClock f

/-- Another agent has the address bus: by AHOLD or BOFF#, or by HOLD once HLDA answers it (R230, R231, R233). -/
def State.addressLent (s : State) : Bool := s.granted || s.pins.ahold || s.pins.boff

/-- EADS# is sampled: some agent has the address bus, no writeback of an earlier inquire cycle is outstanding, CLK runs and no
self-test does (R236, R776). -/
def State.snoops (s : State) : Bool := s.addressLent && !s.cache.hitm && !s.deaf && s.test.tap.ir != 0b00111

/-- AP does not fit the address of an inquire cycle (R212). -/
def badAp (line : Nat) (ap : Bool) : Bool := ap != parityBit (BitVec.ofNat 27 line)

/-- An inquire cycle at a line with INV and AP, between two steps (R139, R212, R236, R237): a parity error is reported and
nothing else. -/
def inquire (line : Nat) (inv ap : Bool) (s : State) : Inquiry :=
  if !s.snoops then { hit := s.cache.hit, hitm := s.cache.hitm, apchk := false, st := s }
  else
    let bad := badAp line ap
    let t := snoopLine line inv s
    { hit := t.cache.hit, hitm := t.cache.hitm, apchk := bad,
      st := (t.setCache { t.cache with apchk := bad }).setClock (inquireClock s.clock) }

/-- An inquire cycle takes its place among those of a step, behind those that have come by then. -/
def addSnoop (q : Snoop) (qs : List Snoop) : List Snoop :=
  qs.takeWhile (fun p => decide (p.after ≤ q.after)) ++ q :: qs.dropWhile fun p => decide (p.after ≤ q.after)

/-- An inquire cycle that arrives while the next step drives its cycles, after so many of them: by AHOLD, or with BOFF# at the cycle
that BOFF# aborts; `late` if that is after the cacheability of a fill was established (R231, R239, R240). The step finds out whether
HITM# is asserted when it arrives, so that it is not sampled (R236: `openStep`, `meetWriteback`, `answerFrom`). -/
def inquireDuring (line : Nat) (inv late ap : Bool) (after : Nat) (s : State) : State :=
  if s.deaf || s.test.tap.ir == 0b00111 then s
  else
    let q : Snoop := { line := line, inv := inv, late := late, after := s.biu.backoff.getD after, bad := badAp line ap,
                       reply := none }
    s.setCache { s.cache with snoops := addSnoop q s.cache.snoops }

/-- BOFF# aborts the cycle of the next step that comes after `k` others: system logic has seen it, and it is driven again from its
beginning, the same, once BOFF# is negated (R231, C23). -/
def backoff (k : Nat) (s : State) : State := s.sampled fun s => s.setBiu { s.biu with backoff := some k }

/-- Another master may drive the memory bus: the processor is held off it, or its clock is stopped (R241, R750). -/
def State.lent (s : State) : Bool := s.addressLent || s.deaf

/-- A byte of main memory as another master reads it (R152, R241); none while it does not own the bus. -/
def busRead (pa : Nat) (s : State) : Option Byte := if s.lent then some (s.mainByte pa) else none

/-- Main memory changes under what the processor holds. -/
def foreignWrite (pa : Nat) (v : Byte) (s : State) : State :=
  match s.cache.dFind (lineOf pa) with
  | none => (s.setMem (s.mem.write pa v)).setCache { s.cache with foreign := true }
  | some l =>
    let held := l.back.getD (s.mem.reads (l.line * 32) 32)
    let c := s.cache.dPut { l with back := some (held.set (pa % 32) v) }
    s.setCache { c with foreign := true }

/-- Another master writes a byte of main memory without an inquire cycle (R152, R241): a cached line and a line that waits for
its writeback keep what they hold, and code already fetched may be the old (R800). -/
def busWrite (pa : Nat) (v : Byte) (s : State) : State :=
  if !s.lent || romAt s.plat pa || silentAt s.plat pa then s
  else
    let s := s.setCache (addMark { pa := pa, la := none, old := fetchHeld pa s, jumped := false } s.cache)
    match s.biu.writeback with
    | none => foreignWrite pa v (keepCode pa s)
    | some (line, bs) =>
      if line = lineOf pa then s.setBiu { s.biu with writeback := some (line, bs.set (pa % 32) v) }
      else foreignWrite pa v (keepCode pa s)

/-! ### Bus errors -/

/-- The definition of a failed bus cycle (R48). -/
structure BusCycle where
  addr : Word
  lock : Bool
  mio : Bool
  dc : Bool
  wr : Bool
  deriving DecidableEq, Repr

/-- MCTR after a failed cycle (R48). -/
def BusCycle.mctr (c : BusCycle) : Qword :=
  (bitAt c.lock 4 ||| bitAt c.mio 3 ||| bitAt c.dc 2 ||| bitAt c.wr 1 ||| 1).setWidth 64

/-- Latch a failed cycle (R612): with CHK still set the first or the second error stays, freely (U23). -/
def latchError (c : BusCycle) (s : State) : State :=
  let keep := s.msr.mctr.getLsbD 0 && Config.freeBit s.draws
  let s := s.setDraws (s.draws + 1)
  let s := if keep then s else s.setMsr { s.msr with mcar := c.addr.setWidth 64, mctr := c.mctr }
  if s.mce then s.setIntr { s.intr with mcPending := true } else s

/-- BUSCHK# is asserted with the BRDY# of a cycle (R214). -/
def busCheck (c : BusCycle) (s : State) : State := s.sampled (latchError c)

/-- A data-parity error on a read: PCHK# in any case, the MSRs only with PEN# asserted (R213). -/
def parityError (pen : Bool) (c : BusCycle) (s : State) : State :=
  s.sampled fun s =>
    if c.wr then s
    else
      let s := s.setBiu { s.biu with pchk := true }
      if pen then latchError c s else s

/-- The parity that system logic returns with the bytes of a read is wrong for one of them (R213). -/
def badParity (dp : List Bool) (c : Cycle) : Bool := decide (dp ≠ c.dp)

/-! ### RESET -/

/-- The inputs sampled at the falling edge of RESET (R773). -/
structure Straps where
  /-- BF is High. -/
  bf : Bool
  /-- FLUSH# is asserted: the output-float test (R775). -/
  flush : Bool
  /-- FRCMC# is asserted: the checker (R777). -/
  frcmc : Bool
  /-- INIT is asserted: the built-in self-test (R776). -/
  init : Bool
  /-- BRDYC# and BUSCHK# are asserted: drive strength (R218). -/
  brdyc : Bool
  buschk : Bool
  deriving DecidableEq, Repr

/-- Main memory under a writeback that was never driven: it still holds the old bytes. -/
def restoreWriteback (m : Memory) : Option (Nat × List Byte) → Memory
  | none => m
  | some (line, bs) => m.writes (line * 32) bs

/-- Main memory as RESET leaves it: modified lines and a writeback that waits are lost, and SMIACT# is negated (R63, R705, R770). -/
def resetMemory (s : State) : State :=
  let m := restoreWriteback (s.cache.dlines.foldl restoreLine s.mem) s.biu.writeback
  let t := ((s.setMem m).setCache .empty).setBiu .idle
  if s.smm.active then swapMaps t else t

/-- Every register and array at its RESET value (R70, R770). -/
def resetProcessor (eax : Word) (s : State) : State :=
  { State.reset with
    gpr := { Gpr.reset s.plat with eax := eax }
    mem := (resetMemory s).mem
    other := (resetMemory s).other
    pins := s.pins
    test := s.test
    bus := s.bus
    draws := s.draws
    plat := s.plat }

/-- RESET (R770): not sampled while CLK is stopped or INIT is asserted already, and not recognised in HDT mode (R860). INIT asserted
together with RESET is the strap (R773). -/
def reset (st : Straps) (s : State) : State :=
  if s.deaf || s.test.hdt || s.pins.init then s
  else
    let t := resetProcessor (if st.init then s.plat.bistResult.setWidth 32 else 0) s
    let t := t.setPlat { t.plat with bf := st.bf }
    t.setTest { hdt := false, hdtByTap := false, frcChecker := st.frcmc, floatTest := st.flush, strapBrdyc := st.brdyc,
                strapBuschk := st.buschk, tap := .reset }

/-- The platform's boot ROM: its image ends at the top of the address space, and with BOOT_ALIAS below 1 Mbyte too (R110,
R779). -/
def loadRom (image : List Byte) (s : State) : State :=
  let top := s.setMem (s.mem.writes (4294967296 - image.length) image)
  if s.plat.bootAlias then top.setMem (top.mem.writes (1048576 - image.length) image) else top

/-! ### The clock -/

/-- CLK stops while STPCLK# is asserted in Stop Grant (R750). -/
def stopClk (s : State) : State :=
  match s.clock with
  | .stopGrant f => if s.pins.stpclk then s.setClock (.stopClock f) else s
  | .normal => s
  | .halt => s
  | .shutdown => s
  | .stopGrantInquire _ => s
  | .stopClock _ => s

/-- CLK starts again, with the ratio BF selects (R751). -/
def startClk (bf : Bool) (s : State) : State :=
  match s.clock with
  | .stopClock f => (s.setClock (.stopGrant f)).setPlat { s.plat with bf := bf }
  | .normal => s
  | .halt => s
  | .shutdown => s
  | .stopGrant _ => s
  | .stopGrantInquire _ => s

/-! ### The test access port -/

/-- The next state of the controller on a rising edge of TCK (R876). -/
def TapState.next : TapState → Bool → TapState
  | .testLogicReset, tms => if tms then .testLogicReset else .runTestIdle
  | .runTestIdle, tms => if tms then .selectDr else .runTestIdle
  | .selectDr, tms => if tms then .selectIr else .captureDr
  | .captureDr, tms => if tms then .exit1Dr else .shiftDr
  | .shiftDr, tms => if tms then .exit1Dr else .shiftDr
  | .exit1Dr, tms => if tms then .updateDr else .pauseDr
  | .pauseDr, tms => if tms then .exit2Dr else .pauseDr
  | .exit2Dr, tms => if tms then .updateDr else .shiftDr
  | .updateDr, tms => if tms then .selectDr else .runTestIdle
  | .selectIr, tms => if tms then .testLogicReset else .captureIr
  | .captureIr, tms => if tms then .exit1Ir else .shiftIr
  | .shiftIr, tms => if tms then .exit1Ir else .shiftIr
  | .exit1Ir, tms => if tms then .updateIr else .pauseIr
  | .pauseIr, tms => if tms then .exit2Ir else .pauseIr
  | .exit2Ir, tms => if tms then .updateIr else .shiftIr
  | .updateIr, tms => if tms then .selectDr else .runTestIdle

/-- The data registers an instruction can put between TDI and TDO (R872). -/
inductive TapReg
  | bypass | ident | bist
  /-- The boundary-scan register and the debug tool's: their lengths are not given (N54). -/
  | unknown
  deriving DecidableEq, Repr

/-- The register an instruction selects (R872): every unlisted encoding selects BYPASS (U19). -/
def tapReg (ir : BitVec 5) : TapReg :=
  match ir.toNat with
  | 0 => .unknown
  | 1 => .unknown
  | 2 => .ident
  | 6 => .unknown
  | 7 => .bist
  | _ => .bypass

/-- The device identification register (R871). -/
def tapIdent (p : Platform) : BitVec 32 := p.tapVersion ++ p.tapBond ++ 0b000101#6 ++ p.tapPartLow ++ 0x001#12

/-- Capture-DR: the selected register's parallel data (R872). -/
def Tap.captureDr (t : Tap) (p : Platform) : Tap :=
  match tapReg t.ir with
  | .bypass => { t with bypass := false }
  | .ident => { t with drShift := tapIdent p }
  | .bist => { t with drShift := t.bistResult.setWidth 32 }
  | .unknown => t

/-- Shift-DR: one bit from TDI in at the top. DESIGN CHOICE (log 39): the BIST result register is nine bits long, as many as its
result has; its length is not given (R874, N54). -/
def Tap.shiftDr (t : Tap) (tdi : Bool) : Tap :=
  match tapReg t.ir with
  | .bypass => { t with bypass := tdi }
  | .ident => { t with drShift := t.drShift >>> 1 ||| bitAt tdi 31 }
  | .bist => { t with drShift := t.drShift >>> 1 ||| bitAt tdi 8 }
  | .unknown => t

/-- The bit TDO shows in a shift state; that of a register whose length is not given is free (N54). -/
def Tap.out (t : Tap) (free : Bool) : TapState → Option Bool
  | .shiftIr => some (t.irShift.getLsbD 0)
  | .shiftDr =>
    match tapReg t.ir with
    | .bypass => some t.bypass
    | .ident => some (t.drShift.getLsbD 0)
    | .bist => some (t.drShift.getLsbD 0)
    | .unknown => some free
  | _ => none

/-- A new current instruction (R873 to R875): RUNBIST resets the processor and leaves the result, USEHDT asks for HDT
mode, and any other instruction ends an HDT mode that USEHDT began unless R/S# is Low. -/
def loadTapIr (ir : BitVec 5) (s : State) : State :=
  let s := if ir = 0b00111 ∧ s.test.tap.ir ≠ 0b00111 then resetProcessor 0 s else s
  let tap := { s.test.tap with ir := ir, bistResult := if ir = 0b00111 then s.plat.bistResult else s.test.tap.bistResult }
  let keep := s.test.hdt && s.pins.rs
  if ir = 0b00110 then s.setTest { s.test with tap := tap, hdtByTap := true }
  else if s.test.hdtByTap then s.setTest { s.test with tap := tap, hdtByTap := false, hdt := keep }
  else s.setTest { s.test with tap := tap }

/-- What the controller does when it leaves a state (R872): capture, shift, update. -/
def leaveTapState (tdi : Bool) (s : State) : State :=
  let t := s.test.tap
  let put (t : Tap) : State := s.setTest { s.test with tap := t }
  match t.ctl with
  | .captureDr => put (t.captureDr s.plat)
  | .shiftDr => put (t.shiftDr tdi)
  | .captureIr => (put { t with irShift := Config.freeBits 5 s.draws }).setDraws (s.draws + 1)
  | .shiftIr => put { t with irShift := t.irShift >>> 1 ||| (if tdi then 16 else 0) }
  | .updateIr => loadTapIr t.irShift s
  | _ => s

/-- Test-Logic-Reset, by TRST# or by TMS (R870, R876): the instruction becomes IDCODE. -/
def tapReset (s : State) : State :=
  if s.pins.init then s
  else
    let s := loadTapIr 0b00010 s
    s.setTest { s.test with tap := { s.test.tap with ctl := .testLogicReset, tdo := none } }

/-- One period of TCK (R870, R876): a rising edge that samples TMS and TDI, then a falling edge that drives TDO. -/
def tapPeriod (tms tdi : Bool) (s : State) : State :=
  let ctl := s.test.tap.ctl.next tms
  let s := leaveTapState tdi s
  if ctl = .testLogicReset then tapReset s
  else
    let out := s.test.tap.out (Config.freeBit s.draws) ctl
    (s.setTest { s.test with tap := { s.test.tap with ctl := ctl, tdo := out } }).setDraws (s.draws + 1)

/-- A period of TCK: the signals of the port are neither sampled nor driven while INIT is asserted (R870). -/
def tapClock (tms tdi : Bool) (s : State) : State := if s.pins.init then s else tapPeriod tms tdi s

end Sys2Proof.Machine
end

