-- ==== Sys2Proof/Tests/Slice0.lean ====
section
/-! SUPPORT. Small tests: what well-formedness refuses, words of every row of the opcode table, and the worked examples of the
spec. The expected values are the spec's own or worked out by hand from its rules; the rule is named in each comment. -/

set_option Elab.async false

namespace Sys2Proof.Tests

open Sys2Proof Sys2Proof.Machine

/-! ### Attributes and states -/

/-- No prefix, 32-bit operands and addresses. -/
def p32 : Pfx := ⟨false, none, .o32, .o32⟩
/-- No prefix, 16-bit operands and addresses. -/
def p16 : Pfx := ⟨false, none, .o16, .o16⟩
/-- LOCK. -/
def pLock : Pfx := ⟨true, none, .o32, .o32⟩

/-- A 4-Gbyte code segment at base 0 with 32-bit defaults. -/
def code32 (dpl : BitVec 2) : SegReg :=
  { sel := 0x0008 ||| dpl.setWidth 16, base := 0, limit := 0xFFFFF,
    attr := { SegAttr.code16 with dpl := dpl, db := true, g := true } }
/-- A 4-Gbyte data segment at base 0. -/
def data32 (dpl : BitVec 2) : SegReg :=
  { sel := 0x0010 ||| dpl.setWidth 16, base := 0, limit := 0xFFFFF,
    attr := { SegAttr.data16 with dpl := dpl, db := true, g := true } }

/-- Protected mode at a level, flat segments, the instruction at 100h, the stack at 1000h. -/
def prot (l : BitVec 2) : State :=
  { State.reset with
    cr := { State.reset.cr with cr0 := 0x60000011 }, cpl := l, eip := 0x100, nextEip := 0x102,
    seg := { es := data32 l, cs := code32 l, ss := data32 l, ds := data32 l, fs := data32 l, gs := data32 l },
    gpr := { State.reset.gpr with edx := 0, esp := 0x1000 } }

/-- Real mode at 1000h:0100h with the stack at 0:1000h. -/
def real : State :=
  { State.reset with
    eip := 0x100, nextEip := 0x102, gpr := { State.reset.gpr with esp := 0x1000 },
    seg := { SegFile.reset with cs := { SegReg.resetCs with sel := 0x1000, base := 0x10000 } } }

/-- Virtual-8086 mode at 0:0100h with the stack at 0:1000h. -/
def v86 : State :=
  { prot 3 with
    flags := { Flags.reset with vm := true },
    seg := { es := .v86 0, cs := .v86 0, ss := .v86 0, ds := .v86 0, fs := .v86 0, gs := .v86 0 } }

/-- A state with bytes of memory. -/
def withBytes (a : Nat) (bs : List Byte) (s : State) : State := { s with mem := s.mem.writes a bs }

/-- A state with other registers. -/
def withRegs (f : Gpr → Gpr) (s : State) : State := { s with gpr := f s.gpr }

/-- A state with other flags. -/
def withFlags (f : Flags → Flags) (s : State) : State := { s with flags := f s.flags }

/-- A state with x87 values on the stack, the first on top, and the round-to-nearest 64-bit control word 037Fh. -/
def withFpu (vs : List Ext) (s : State) : State :=
  { s with fpu := vs.reverse.foldl (fun f v => f.push v) { Fpu.reset with cw := 0x037F, tw := 0xFFFF } }

/-- The outcome is a next state with a property. -/
def nexts (o : Host.Outcome State Fault Refusal) (f : State → Bool) : Bool :=
  match o with
  | .next t => f t
  | .fault _ => false
  | .refused _ => false

/-- The bytes decode in a code segment of the given size to one instruction that ends in a state with the property. -/
noncomputable def runs (d : Bool) (bs : List Byte) (s : State) (f : State → Bool) : Bool :=
  match decode d bs with
  | .ok i n => n == bs.length && nexts (exec i (s.setNextEip (s.eip + BitVec.ofNat 32 n))) f
  | _ => false

/-- The outcome is the delivery of an exception through the interrupt table of Real mode: CS:EIP is what the vector holds. -/
def tookVector (o : Host.Outcome State Fault Refusal) (sel : Half) (off : Word) : Bool :=
  nexts o fun t => t.seg.cs.sel == sel && t.eip == off

/-! ### What well-formedness refuses -/

/-- LOCK where no row accepts it (R277). -/
theorem test_wf_lock : (Instr.movEvGv pLock (.mem (.m32 (some .eax) none 0)) .ecx).wf = false := rfl
/-- LOCK with a register destination (R277). -/
theorem test_wf_lock_register : (Instr.addEvGv pLock (.reg .eax) .ecx).wf = false := rfl
/-- LOCK with a memory destination is accepted (R277). -/
theorem test_wf_lock_memory : (Instr.addEvGv pLock (.mem (.m32 (some .eax) none 0)) .ecx).wf = true := rfl
/-- A 16-bit address form under a 32-bit address size, and the other way round (R265, R267). -/
theorem test_wf_address_size : (Instr.incEv p32 (.mem (.m16 .bx 0))).wf = false ∧
    (Instr.incEv p16 (.mem (.m32 none none 0))).wf = false := ⟨rfl, rfl⟩
/-- ESP is no index (R266). -/
theorem test_wf_index : (Instr.incEv p32 (.mem (.m32 none (some (.esp, 0)) 0))).wf = false := rfl
/-- An immediate wider than the operand size (R269). -/
theorem test_wf_immediate : (Instr.movEvIv p16 (.reg .eax) 0x10000).wf = false ∧
    (Instr.movEvIv p16 (.reg .eax) 0xFFFF).wf = true := ⟨rfl, rfl⟩
/-- An absolute offset wider than the address size (R269). -/
theorem test_wf_moffs : (Instr.movEaxMoffs p16 0x10000).wf = false := rfl
/-- MOV to CS is invalid (R279). -/
theorem test_wf_mov_cs : (Instr.movSregEw p32 .cs (.reg .eax)).wf = false := rfl
/-- XCHG EAX,EAX in its one-byte form is NOP (R428). -/
theorem test_wf_xchg : (Instr.xchgEaxR p32 .eax).wf = false := rfl

/-! ### Decoding: address forms, prefixes, what is refused -/

/-- The forms of 32-bit addressing (R265, R266): no base, a base without and with displacements, ESP as a base, an index
without a base. -/
theorem test_decode_mem32 :
    decode true [0xFF, 0x05, 0x78, 0x56, 0x34, 0x12] = .ok (.incEv p32 (.mem (.m32 none none 0x12345678))) 6 ∧
    decode true [0xFF, 0x00] = .ok (.incEv p32 (.mem (.m32 (some .eax) none 0))) 2 ∧
    decode true [0xFF, 0x45, 0xFC] = .ok (.incEv p32 (.mem (.m32 (some .ebp) none 0xFFFFFFFC))) 3 ∧
    decode true [0xFF, 0x04, 0x24] = .ok (.incEv p32 (.mem (.m32 (some .esp) none 0))) 3 ∧
    decode true [0xFF, 0x04, 0xCD, 0, 1, 0, 0] = .ok (.incEv p32 (.mem (.m32 none (some (.ecx, 3)) 0x100))) 7 ∧
    decode true [0xFF, 0x84, 0x75, 0, 1, 0, 0] = .ok (.incEv p32 (.mem (.m32 (some .ebp) (some (.esi, 1)) 0x100))) 7 :=
  ⟨rfl, rfl, rfl, rfl, rfl, rfl⟩

/-- The forms of 16-bit addressing (R267). -/
theorem test_decode_mem16 :
    decode false [0xFF, 0x06, 0x34, 0x12] = .ok (.incEv p16 (.mem (.m16 .abs 0x1234))) 4 ∧
    decode false [0xFF, 0x02] = .ok (.incEv p16 (.mem (.m16 .bpsi 0))) 2 ∧
    decode false [0xFF, 0x46, 0xFE] = .ok (.incEv p16 (.mem (.m16 .bp 0xFFFE))) 3 ∧
    decode false [0xFF, 0x87, 0x00, 0x80] = .ok (.incEv p16 (.mem (.m16 .bx 0x8000))) 4 :=
  ⟨rfl, rfl, rfl, rfl⟩

/-- Prefixes (R261, R262): operand size, address size, the last segment override, LOCK; two 66 bytes act as one. -/
theorem test_decode_prefixes :
    decode true [0x66, 0x41] = .ok (.incR ⟨false, none, .o16, .o32⟩ .ecx) 2 ∧
    decode false [0x66, 0x66, 0x41] = .ok (.incR ⟨false, none, .o32, .o16⟩ .ecx) 3 ∧
    decode false [0x67, 0xFF, 0x00] = .ok (.incEv ⟨false, none, .o16, .o32⟩ (.mem (.m32 (some .eax) none 0))) 3 ∧
    decode true [0x2E, 0x65, 0xFF, 0x00] = .ok (.incEv ⟨false, some .gs, .o32, .o32⟩ (.mem (.m32 (some .eax) none 0))) 4 ∧
    decode true [0xF0, 0xFF, 0x03] = .ok (.incEv pLock (.mem (.m32 (some .ebx) none 0))) 3 :=
  ⟨rfl, rfl, rfl, rfl, rfl⟩

/-- Invalid encodings (R277, R279): LOCK INC EBX, LEA of a register, MOV to CS, group 4 /2; incomplete bytes; an instruction
outside the spec (R278). -/
theorem test_decode_refusals :
    decode true [0xF0, 0x43] = .ud ∧ decode true [0x8D, 0xC0] = .ud ∧ decode true [0x8E, 0xC8] = .ud ∧
    decode true [0xFE, 0xD0] = .ud ∧ decode true [0x81, 0xC0, 0, 0, 0] = .more ∧ decode true [0x27] = .refused "DAA" :=
  ⟨rfl, rfl, rfl, rfl, rfl, rfl⟩

/-! ### Decoding: a word of every row, written out from the opcode table and the operand rules (R264 to R275) -/

/-- Words of FABS to FCOMP_ST_i (30_encoding.md, opcode table format `x87_reg`). -/
theorem test_decode_x87_reg_1 :
    decode true [0xD9, 0xE1] = .ok (.fabs p32) 2 ∧
    decode true [0xD9, 0xE0] = .ok (.fchs p32) 2 ∧
    decode true [0xDE, 0xD9] = .ok (.fcompp p32) 2 ∧
    decode true [0xD9, 0xF6] = .ok (.fdecstp p32) 2 ∧
    decode true [0xD9, 0xD0] = .ok (.fnop p32) 2 ∧
    decode true [0xD9, 0xFC] = .ok (.frndint p32) 2 ∧
    decode true [0xD9, 0xFD] = .ok (.fscale p32) 2 ∧
    decode true [0xD9, 0xE4] = .ok (.ftst p32) 2 ∧
    decode true [0xDA, 0xE9] = .ok (.fucompp p32) 2 ∧
    decode true [0xD9, 0xE5] = .ok (.fxam p32) 2 ∧
    decode true [0xD9, 0xF4] = .ok (.fxtract p32) 2 ∧
    decode true [0xD8, 0xC2] = .ok (.faddStSti p32 2) 2 ∧
    decode true [0xDC, 0xC5] = .ok (.faddStiSt p32 5) 2 ∧
    decode true [0xDE, 0xC0] = .ok (.faddpStiSt p32 0) 2 ∧
    decode true [0xD8, 0xD3] = .ok (.fcomSti p32 3) 2 ∧
    decode true [0xD8, 0xDE] = .ok (.fcompSti p32 6) 2 :=
  ⟨rfl, rfl, rfl, rfl, rfl, rfl, rfl, rfl, rfl, rfl, rfl, rfl, rfl, rfl, rfl, rfl⟩

/-- Words of FLD_ST_i to FXCH_ST_i (30_encoding.md, opcode table format `x87_reg`). -/
theorem test_decode_x87_reg_2 :
    decode true [0xD9, 0xC1] = .ok (.fldSti p32 1) 2 ∧
    decode true [0xD8, 0xCC] = .ok (.fmulStSti p32 4) 2 ∧
    decode true [0xDC, 0xCF] = .ok (.fmulStiSt p32 7) 2 ∧
    decode true [0xDE, 0xCA] = .ok (.fmulpStiSt p32 2) 2 ∧
    decode true [0xDD, 0xD5] = .ok (.fstSti p32 5) 2 ∧
    decode true [0xDD, 0xD8] = .ok (.fstpSti p32 0) 2 ∧
    decode true [0xD8, 0xE3] = .ok (.fsubStSti p32 3) 2 ∧
    decode true [0xDC, 0xEE] = .ok (.fsubStiSt p32 6) 2 ∧
    decode true [0xDE, 0xE9] = .ok (.fsubpStiSt p32 1) 2 ∧
    decode true [0xD8, 0xEC] = .ok (.fsubrStSti p32 4) 2 ∧
    decode true [0xDC, 0xE7] = .ok (.fsubrStiSt p32 7) 2 ∧
    decode true [0xDE, 0xE2] = .ok (.fsubrpStiSt p32 2) 2 ∧
    decode true [0xDD, 0xE5] = .ok (.fucomSti p32 5) 2 ∧
    decode true [0xDD, 0xE8] = .ok (.fucompSti p32 0) 2 ∧
    decode true [0xD9, 0xCB] = .ok (.fxchSti p32 3) 2 :=
  ⟨rfl, rfl, rfl, rfl, rfl, rfl, rfl, rfl, rfl, rfl, rfl, rfl, rfl, rfl, rfl⟩

/-- Words of ADD_Eb_Ib to SUB_Eb_Ib (30_encoding.md, opcode table format `grp_imm`). -/
theorem test_decode_grp_imm_1 :
    decode true [0x80, 0x84, 0x8B, 0x5F, 0x30, 0x20, 0x10, 0x14] = .ok (.addEbIb p32 (.mem (.m32 (some .ebx) (some (.ecx, 2)) 0x1020305f)) 0x14) 8 ∧
    decode true [0x81, 0xC2, 0x20, 0xCD, 0xAB, 0x89] = .ok (.addEvIv p32 (.reg .edx) 0x89abcd20) 6 ∧
    decode true [0x83, 0x84, 0x8B, 0x61, 0x30, 0x20, 0x10, 0x2E] = .ok (.addEvIbs p32 (.mem (.m32 (some .ebx) (some (.ecx, 2)) 0x10203061)) 0x2e) 8 ∧
    decode true [0x80, 0xCC, 0x3B] = .ok (.orEbIb p32 (.reg .esp) 0x3b) 3 ∧
    decode true [0x81, 0x8C, 0x8B, 0x63, 0x30, 0x20, 0x10, 0x23, 0xCD, 0xAB, 0x89] = .ok (.orEvIv p32 (.mem (.m32 (some .ebx) (some (.ecx, 2)) 0x10203063)) 0x89abcd23) 11 ∧
    decode true [0x83, 0xCE, 0x55] = .ok (.orEvIbs p32 (.reg .esi) 0x55) 3 ∧
    decode true [0x80, 0x94, 0x8B, 0x65, 0x30, 0x20, 0x10, 0x62] = .ok (.adcEbIb p32 (.mem (.m32 (some .ebx) (some (.ecx, 2)) 0x10203065)) 0x62) 8 ∧
    decode true [0x81, 0xD0, 0x26, 0xCD, 0xAB, 0x89] = .ok (.adcEvIv p32 (.reg .eax) 0x89abcd26) 6 ∧
    decode true [0x83, 0x94, 0x8B, 0x67, 0x30, 0x20, 0x10, 0x7C] = .ok (.adcEvIbs p32 (.mem (.m32 (some .ebx) (some (.ecx, 2)) 0x10203067)) 0x7c) 8 ∧
    decode true [0x80, 0xDA, 0x89] = .ok (.sbbEbIb p32 (.reg .edx) 0x89) 3 ∧
    decode true [0x81, 0x9C, 0x8B, 0x69, 0x30, 0x20, 0x10, 0x29, 0xCD, 0xAB, 0x89] = .ok (.sbbEvIv p32 (.mem (.m32 (some .ebx) (some (.ecx, 2)) 0x10203069)) 0x89abcd29) 11 ∧
    decode true [0x83, 0xDC, 0xA3] = .ok (.sbbEvIbs p32 (.reg .esp) 0xa3) 3 ∧
    decode true [0x80, 0xA4, 0x8B, 0x6B, 0x30, 0x20, 0x10, 0xB0] = .ok (.andEbIb p32 (.mem (.m32 (some .ebx) (some (.ecx, 2)) 0x1020306b)) 0xb0) 8 ∧
    decode true [0x81, 0xE6, 0x2C, 0xCD, 0xAB, 0x89] = .ok (.andEvIv p32 (.reg .esi) 0x89abcd2c) 6 ∧
    decode true [0x83, 0xA4, 0x8B, 0x6D, 0x30, 0x20, 0x10, 0xCA] = .ok (.andEvIbs p32 (.mem (.m32 (some .ebx) (some (.ecx, 2)) 0x1020306d)) 0xca) 8 ∧
    decode true [0x80, 0xE8, 0xD7] = .ok (.subEbIb p32 (.reg .eax) 0xd7) 3 :=
  ⟨rfl, rfl, rfl, rfl, rfl, rfl, rfl, rfl, rfl, rfl, rfl, rfl, rfl, rfl, rfl, rfl⟩

/-- Words of SUB_Ev_Iv to SHR_Ev_Ib (30_encoding.md, opcode table format `grp_imm`). -/
theorem test_decode_grp_imm_2 :
    decode true [0x81, 0xAC, 0x8B, 0x6F, 0x30, 0x20, 0x10, 0x2F, 0xCD, 0xAB, 0x89] = .ok (.subEvIv p32 (.mem (.m32 (some .ebx) (some (.ecx, 2)) 0x1020306f)) 0x89abcd2f) 11 ∧
    decode true [0x83, 0xEA, 0xF1] = .ok (.subEvIbs p32 (.reg .edx) 0xf1) 3 ∧
    decode true [0x80, 0xB4, 0x8B, 0x71, 0x30, 0x20, 0x10, 0xFE] = .ok (.xorEbIb p32 (.mem (.m32 (some .ebx) (some (.ecx, 2)) 0x10203071)) 0xfe) 8 ∧
    decode true [0x81, 0xF4, 0x32, 0xCD, 0xAB, 0x89] = .ok (.xorEvIv p32 (.reg .esp) 0x89abcd32) 6 ∧
    decode true [0x83, 0xB4, 0x8B, 0x73, 0x30, 0x20, 0x10, 0x18] = .ok (.xorEvIbs p32 (.mem (.m32 (some .ebx) (some (.ecx, 2)) 0x10203073)) 0x18) 8 ∧
    decode true [0x80, 0xFE, 0x25] = .ok (.cmpEbIb p32 (.reg .esi) 0x25) 3 ∧
    decode true [0x81, 0xBC, 0x8B, 0x75, 0x30, 0x20, 0x10, 0x35, 0xCD, 0xAB, 0x89] = .ok (.cmpEvIv p32 (.mem (.m32 (some .ebx) (some (.ecx, 2)) 0x10203075)) 0x89abcd35) 11 ∧
    decode true [0x83, 0xF8, 0x3F] = .ok (.cmpEvIbs p32 (.reg .eax) 0x3f) 3 ∧
    decode true [0xC0, 0xC2, 0x59] = .ok (.rolEbIb p32 (.reg .edx) 0x59) 3 ∧
    decode true [0xC1, 0x84, 0x8B, 0x79, 0x30, 0x20, 0x10, 0x66] = .ok (.rolEvIb p32 (.mem (.m32 (some .ebx) (some (.ecx, 2)) 0x10203079)) 0x66) 8 ∧
    decode true [0xC0, 0xC8, 0xA7] = .ok (.rorEbIb p32 (.reg .eax) 0xa7) 3 ∧
    decode true [0xC1, 0x8C, 0x8B, 0x7F, 0x30, 0x20, 0x10, 0xB4] = .ok (.rorEvIb p32 (.mem (.m32 (some .ebx) (some (.ecx, 2)) 0x1020307f)) 0xb4) 8 ∧
    decode true [0xC0, 0xE6, 0xF5] = .ok (.shlEbIb p32 (.reg .esi) 0xf5) 3 ∧
    decode true [0xC1, 0xA4, 0x8B, 0x85, 0x30, 0x20, 0x10, 0x02] = .ok (.shlEvIb p32 (.mem (.m32 (some .ebx) (some (.ecx, 2)) 0x10203085)) 0x2) 8 ∧
    decode true [0xC0, 0xEC, 0x43] = .ok (.shrEbIb p32 (.reg .esp) 0x43) 3 ∧
    decode true [0xC1, 0xAC, 0x8B, 0x8B, 0x30, 0x20, 0x10, 0x50] = .ok (.shrEvIb p32 (.mem (.m32 (some .ebx) (some (.ecx, 2)) 0x1020308b)) 0x50) 8 :=
  ⟨rfl, rfl, rfl, rfl, rfl, rfl, rfl, rfl, rfl, rfl, rfl, rfl, rfl, rfl, rfl, rfl⟩

/-- Words of SAR_Eb_Ib to BTC_Ev_Ib (30_encoding.md, opcode table format `grp_imm`). -/
theorem test_decode_grp_imm_3 :
    decode true [0xC0, 0xFA, 0x91] = .ok (.sarEbIb p32 (.reg .edx) 0x91) 3 ∧
    decode true [0xC1, 0xBC, 0x8B, 0x91, 0x30, 0x20, 0x10, 0x9E] = .ok (.sarEvIb p32 (.mem (.m32 (some .ebx) (some (.ecx, 2)) 0x10203091)) 0x9e) 8 ∧
    decode true [0xC6, 0xC0, 0xDF] = .ok (.movEbIb p32 (.reg .eax) 0xdf) 3 ∧
    decode true [0xC7, 0x84, 0x8B, 0x97, 0x30, 0x20, 0x10, 0x57, 0xCD, 0xAB, 0x89] = .ok (.movEvIv p32 (.mem (.m32 (some .ebx) (some (.ecx, 2)) 0x10203097)) 0x89abcd57) 11 ∧
    decode true [0xF6, 0xC2, 0xF9] = .ok (.testEbIb p32 (.reg .edx) 0xf9) 3 ∧
    decode true [0xF7, 0x84, 0x8B, 0x9F, 0x30, 0x20, 0x10, 0x5F, 0xCD, 0xAB, 0x89] = .ok (.testEvIv p32 (.mem (.m32 (some .ebx) (some (.ecx, 2)) 0x1020309f)) 0x89abcd5f) 11 ∧
    decode true [0x0F, 0xBA, 0xA4, 0x8B, 0xBB, 0x30, 0x20, 0x10, 0xC0] = .ok (.btEvIb p32 (.mem (.m32 (some .ebx) (some (.ecx, 2)) 0x102030bb)) 0xc0) 9 ∧
    decode true [0x0F, 0xBA, 0xEE, 0xCD] = .ok (.btsEvIb p32 (.reg .esi) 0xcd) 4 ∧
    decode true [0x0F, 0xBA, 0xB4, 0x8B, 0xBD, 0x30, 0x20, 0x10, 0xDA] = .ok (.btrEvIb p32 (.mem (.m32 (some .ebx) (some (.ecx, 2)) 0x102030bd)) 0xda) 9 ∧
    decode true [0x0F, 0xBA, 0xF8, 0xE7] = .ok (.btcEvIb p32 (.reg .eax) 0xe7) 4 :=
  ⟨rfl, rfl, rfl, rfl, rfl, rfl, rfl, rfl, rfl, rfl⟩

/-- Words of POP_Ev to SHR_Eb_CL (30_encoding.md, opcode table format `grp`). -/
theorem test_decode_grp_1 :
    decode true [0x8F, 0x84, 0x8B, 0x77, 0x30, 0x20, 0x10] = .ok (.popEv p32 (.mem (.m32 (some .ebx) (some (.ecx, 2)) 0x10203077))) 7 ∧
    decode true [0xD0, 0xC4] = .ok (.rolEb1 p32 (.reg .esp)) 2 ∧
    decode true [0xD1, 0x84, 0x8B, 0x7B, 0x30, 0x20, 0x10] = .ok (.rolEv1 p32 (.mem (.m32 (some .ebx) (some (.ecx, 2)) 0x1020307b))) 7 ∧
    decode true [0xD2, 0xC6] = .ok (.rolEbCl p32 (.reg .esi)) 2 ∧
    decode true [0xD3, 0x84, 0x8B, 0x7D, 0x30, 0x20, 0x10] = .ok (.rolEvCl p32 (.mem (.m32 (some .ebx) (some (.ecx, 2)) 0x1020307d))) 7 ∧
    decode true [0xD0, 0xCA] = .ok (.rorEb1 p32 (.reg .edx)) 2 ∧
    decode true [0xD1, 0x8C, 0x8B, 0x81, 0x30, 0x20, 0x10] = .ok (.rorEv1 p32 (.mem (.m32 (some .ebx) (some (.ecx, 2)) 0x10203081))) 7 ∧
    decode true [0xD2, 0xCC] = .ok (.rorEbCl p32 (.reg .esp)) 2 ∧
    decode true [0xD3, 0x8C, 0x8B, 0x83, 0x30, 0x20, 0x10] = .ok (.rorEvCl p32 (.mem (.m32 (some .ebx) (some (.ecx, 2)) 0x10203083))) 7 ∧
    decode true [0xD0, 0xE0] = .ok (.shlEb1 p32 (.reg .eax)) 2 ∧
    decode true [0xD1, 0xA4, 0x8B, 0x87, 0x30, 0x20, 0x10] = .ok (.shlEv1 p32 (.mem (.m32 (some .ebx) (some (.ecx, 2)) 0x10203087))) 7 ∧
    decode true [0xD2, 0xE2] = .ok (.shlEbCl p32 (.reg .edx)) 2 ∧
    decode true [0xD3, 0xA4, 0x8B, 0x89, 0x30, 0x20, 0x10] = .ok (.shlEvCl p32 (.mem (.m32 (some .ebx) (some (.ecx, 2)) 0x10203089))) 7 ∧
    decode true [0xD0, 0xEE] = .ok (.shrEb1 p32 (.reg .esi)) 2 ∧
    decode true [0xD1, 0xAC, 0x8B, 0x8D, 0x30, 0x20, 0x10] = .ok (.shrEv1 p32 (.mem (.m32 (some .ebx) (some (.ecx, 2)) 0x1020308d))) 7 ∧
    decode true [0xD2, 0xE8] = .ok (.shrEbCl p32 (.reg .eax)) 2 :=
  ⟨rfl, rfl, rfl, rfl, rfl, rfl, rfl, rfl, rfl, rfl, rfl, rfl, rfl, rfl, rfl, rfl⟩

/-- Words of SHR_Ev_CL to DIV_Ev (30_encoding.md, opcode table format `grp`). -/
theorem test_decode_grp_2 :
    decode true [0xD3, 0xAC, 0x8B, 0x8F, 0x30, 0x20, 0x10] = .ok (.shrEvCl p32 (.mem (.m32 (some .ebx) (some (.ecx, 2)) 0x1020308f))) 7 ∧
    decode true [0xD0, 0xFC] = .ok (.sarEb1 p32 (.reg .esp)) 2 ∧
    decode true [0xD1, 0xBC, 0x8B, 0x93, 0x30, 0x20, 0x10] = .ok (.sarEv1 p32 (.mem (.m32 (some .ebx) (some (.ecx, 2)) 0x10203093))) 7 ∧
    decode true [0xD2, 0xFE] = .ok (.sarEbCl p32 (.reg .esi)) 2 ∧
    decode true [0xD3, 0xBC, 0x8B, 0x95, 0x30, 0x20, 0x10] = .ok (.sarEvCl p32 (.mem (.m32 (some .ebx) (some (.ecx, 2)) 0x10203095))) 7 ∧
    decode true [0xF6, 0x94, 0x8B, 0x99, 0x30, 0x20, 0x10] = .ok (.notEb p32 (.mem (.m32 (some .ebx) (some (.ecx, 2)) 0x10203099))) 7 ∧
    decode true [0xF6, 0xDC] = .ok (.negEb p32 (.reg .esp)) 2 ∧
    decode true [0xF6, 0xA4, 0x8B, 0x9B, 0x30, 0x20, 0x10] = .ok (.mulEb p32 (.mem (.m32 (some .ebx) (some (.ecx, 2)) 0x1020309b))) 7 ∧
    decode true [0xF6, 0xEE] = .ok (.imulEb p32 (.reg .esi)) 2 ∧
    decode true [0xF6, 0xB4, 0x8B, 0x9D, 0x30, 0x20, 0x10] = .ok (.divEb p32 (.mem (.m32 (some .ebx) (some (.ecx, 2)) 0x1020309d))) 7 ∧
    decode true [0xF6, 0xF8] = .ok (.idivEb p32 (.reg .eax)) 2 ∧
    decode true [0xF7, 0xD2] = .ok (.notEv p32 (.reg .edx)) 2 ∧
    decode true [0xF7, 0x9C, 0x8B, 0xA1, 0x30, 0x20, 0x10] = .ok (.negEv p32 (.mem (.m32 (some .ebx) (some (.ecx, 2)) 0x102030a1))) 7 ∧
    decode true [0xF7, 0xE4] = .ok (.mulEv p32 (.reg .esp)) 2 ∧
    decode true [0xF7, 0xAC, 0x8B, 0xA3, 0x30, 0x20, 0x10] = .ok (.imulEv p32 (.mem (.m32 (some .ebx) (some (.ecx, 2)) 0x102030a3))) 7 ∧
    decode true [0xF7, 0xF6] = .ok (.divEv p32 (.reg .esi)) 2 :=
  ⟨rfl, rfl, rfl, rfl, rfl, rfl, rfl, rfl, rfl, rfl, rfl, rfl, rfl, rfl, rfl, rfl⟩

/-- Words of IDIV_Ev to MOV_r32_CR2 (30_encoding.md, opcode table format `grp`). -/
theorem test_decode_grp_3 :
    decode true [0xF7, 0xBC, 0x8B, 0xA5, 0x30, 0x20, 0x10] = .ok (.idivEv p32 (.mem (.m32 (some .ebx) (some (.ecx, 2)) 0x102030a5))) 7 ∧
    decode true [0xFE, 0xC0] = .ok (.incEb p32 (.reg .eax)) 2 ∧
    decode true [0xFE, 0x8C, 0x8B, 0xA7, 0x30, 0x20, 0x10] = .ok (.decEb p32 (.mem (.m32 (some .ebx) (some (.ecx, 2)) 0x102030a7))) 7 ∧
    decode true [0xFF, 0xC2] = .ok (.incEv p32 (.reg .edx)) 2 ∧
    decode true [0xFF, 0x8C, 0x8B, 0xA9, 0x30, 0x20, 0x10] = .ok (.decEv p32 (.mem (.m32 (some .ebx) (some (.ecx, 2)) 0x102030a9))) 7 ∧
    decode true [0xFF, 0xD4] = .ok (.callEv p32 (.reg .esp)) 2 ∧
    decode true [0xFF, 0xA4, 0x8B, 0xAB, 0x30, 0x20, 0x10] = .ok (.jmpEv p32 (.mem (.m32 (some .ebx) (some (.ecx, 2)) 0x102030ab))) 7 ∧
    decode true [0xFF, 0x6E, 0x29] = .ok (.jmpMp p32 (.m32 (some .esi) none 41)) 3 ∧
    decode true [0xFF, 0xB4, 0x8B, 0xAD, 0x30, 0x20, 0x10] = .ok (.pushEv p32 (.mem (.m32 (some .ebx) (some (.ecx, 2)) 0x102030ad))) 7 ∧
    decode true [0x0F, 0x00, 0xD0] = .ok (.lldtEw p32 (.reg .eax)) 3 ∧
    decode true [0x0F, 0x00, 0x9C, 0x8B, 0xAF, 0x30, 0x20, 0x10] = .ok (.ltrEw p32 (.mem (.m32 (some .ebx) (some (.ecx, 2)) 0x102030af))) 8 ∧
    decode true [0x0F, 0x01, 0x56, 0x55] = .ok (.lgdtMs p32 (.m32 (some .esi) none 85)) 4 ∧
    decode true [0x0F, 0x01, 0x5E, 0x60] = .ok (.lidtMs p32 (.m32 (some .esi) none 96)) 4 ∧
    decode true [0x0F, 0x01, 0x7E, 0x6B] = .ok (.invlpgM p32 (.m32 (some .esi) none 107)) 4 ∧
    decode true [0x0F, 0x20, 0xC1] = .ok (.movRCr0 p32 .ecx) 3 ∧
    decode true [0x0F, 0x20, 0xD6] = .ok (.movRCr2 p32 .esi) 3 :=
  ⟨rfl, rfl, rfl, rfl, rfl, rfl, rfl, rfl, rfl, rfl, rfl, rfl, rfl, rfl, rfl, rfl⟩

/-- Words of MOV_r32_CR3 to CMPXCHG8B_Mq (30_encoding.md, opcode table format `grp`). -/
theorem test_decode_grp_4 :
    decode true [0x0F, 0x20, 0xDB] = .ok (.movRCr3 p32 .ebx) 3 ∧
    decode true [0x0F, 0x20, 0xE0] = .ok (.movRCr4 p32 .eax) 3 ∧
    decode true [0x0F, 0x22, 0xC5] = .ok (.movCr0R p32 .ebp) 3 ∧
    decode true [0x0F, 0x22, 0xD2] = .ok (.movCr2R p32 .edx) 3 ∧
    decode true [0x0F, 0x22, 0xDF] = .ok (.movCr3R p32 .edi) 3 ∧
    decode true [0x0F, 0x22, 0xE4] = .ok (.movCr4R p32 .esp) 3 ∧
    decode true [0x0F, 0xC7, 0x4E, 0x7A] = .ok (.cmpxchg8bMq p32 (.m32 (some .esi) none 122)) 4 :=
  ⟨rfl, rfl, rfl, rfl, rfl, rfl, rfl⟩

/-- Words of FADD_m32real to FIMUL_m16int (30_encoding.md, opcode table format `x87_mem`). -/
theorem test_decode_x87_mem_1 :
    decode true [0xD8, 0x46, 0x05] = .ok (.faddM32 p32 (.m32 (some .esi) none 5)) 3 ∧
    decode true [0xDC, 0x46, 0x10] = .ok (.faddM64 p32 (.m32 (some .esi) none 16)) 3 ∧
    decode true [0xD8, 0x56, 0x1B] = .ok (.fcomM32 p32 (.m32 (some .esi) none 27)) 3 ∧
    decode true [0xDC, 0x56, 0x26] = .ok (.fcomM64 p32 (.m32 (some .esi) none 38)) 3 ∧
    decode true [0xD8, 0x5E, 0x31] = .ok (.fcompM32 p32 (.m32 (some .esi) none 49)) 3 ∧
    decode true [0xDC, 0x5E, 0x3C] = .ok (.fcompM64 p32 (.m32 (some .esi) none 60)) 3 ∧
    decode true [0xDE, 0x46, 0x47] = .ok (.fiaddM16 p32 (.m32 (some .esi) none 71)) 3 ∧
    decode true [0xDA, 0x46, 0x52] = .ok (.fiaddM32 p32 (.m32 (some .esi) none 82)) 3 ∧
    decode true [0xDE, 0x56, 0x5D] = .ok (.ficomM16 p32 (.m32 (some .esi) none 93)) 3 ∧
    decode true [0xDA, 0x56, 0x68] = .ok (.ficomM32 p32 (.m32 (some .esi) none 104)) 3 ∧
    decode true [0xDE, 0x5E, 0x73] = .ok (.ficompM16 p32 (.m32 (some .esi) none 115)) 3 ∧
    decode true [0xDA, 0x5E, 0x7E] = .ok (.ficompM32 p32 (.m32 (some .esi) none 126)) 3 ∧
    decode true [0xDF, 0x46, 0x09] = .ok (.fildM16 p32 (.m32 (some .esi) none 9)) 3 ∧
    decode true [0xDB, 0x46, 0x14] = .ok (.fildM32 p32 (.m32 (some .esi) none 20)) 3 ∧
    decode true [0xDF, 0x6E, 0x1F] = .ok (.fildM64 p32 (.m32 (some .esi) none 31)) 3 ∧
    decode true [0xDE, 0x4E, 0x2A] = .ok (.fimulM16 p32 (.m32 (some .esi) none 42)) 3 :=
  ⟨rfl, rfl, rfl, rfl, rfl, rfl, rfl, rfl, rfl, rfl, rfl, rfl, rfl, rfl, rfl, rfl⟩

/-- Words of FIMUL_m32int to FST_m32real (30_encoding.md, opcode table format `x87_mem`). -/
theorem test_decode_x87_mem_2 :
    decode true [0xDA, 0x4E, 0x35] = .ok (.fimulM32 p32 (.m32 (some .esi) none 53)) 3 ∧
    decode true [0xDF, 0x56, 0x40] = .ok (.fistM16 p32 (.m32 (some .esi) none 64)) 3 ∧
    decode true [0xDB, 0x56, 0x4B] = .ok (.fistM32 p32 (.m32 (some .esi) none 75)) 3 ∧
    decode true [0xDF, 0x5E, 0x56] = .ok (.fistpM16 p32 (.m32 (some .esi) none 86)) 3 ∧
    decode true [0xDB, 0x5E, 0x61] = .ok (.fistpM32 p32 (.m32 (some .esi) none 97)) 3 ∧
    decode true [0xDF, 0x7E, 0x6C] = .ok (.fistpM64 p32 (.m32 (some .esi) none 108)) 3 ∧
    decode true [0xDE, 0x66, 0x77] = .ok (.fisubM16 p32 (.m32 (some .esi) none 119)) 3 ∧
    decode true [0xDA, 0x66, 0x02] = .ok (.fisubM32 p32 (.m32 (some .esi) none 2)) 3 ∧
    decode true [0xDE, 0x6E, 0x0D] = .ok (.fisubrM16 p32 (.m32 (some .esi) none 13)) 3 ∧
    decode true [0xDA, 0x6E, 0x18] = .ok (.fisubrM32 p32 (.m32 (some .esi) none 24)) 3 ∧
    decode true [0xD9, 0x46, 0x23] = .ok (.fldM32 p32 (.m32 (some .esi) none 35)) 3 ∧
    decode true [0xDD, 0x46, 0x2E] = .ok (.fldM64 p32 (.m32 (some .esi) none 46)) 3 ∧
    decode true [0xDB, 0x6E, 0x39] = .ok (.fldM80 p32 (.m32 (some .esi) none 57)) 3 ∧
    decode true [0xD8, 0x4E, 0x44] = .ok (.fmulM32 p32 (.m32 (some .esi) none 68)) 3 ∧
    decode true [0xDC, 0x4E, 0x4F] = .ok (.fmulM64 p32 (.m32 (some .esi) none 79)) 3 ∧
    decode true [0xD9, 0x56, 0x5A] = .ok (.fstM32 p32 (.m32 (some .esi) none 90)) 3 :=
  ⟨rfl, rfl, rfl, rfl, rfl, rfl, rfl, rfl, rfl, rfl, rfl, rfl, rfl, rfl, rfl, rfl⟩

/-- Words of FST_m64real to FSUBR_m64real (30_encoding.md, opcode table format `x87_mem`). -/
theorem test_decode_x87_mem_3 :
    decode true [0xDD, 0x56, 0x65] = .ok (.fstM64 p32 (.m32 (some .esi) none 101)) 3 ∧
    decode true [0xD9, 0x5E, 0x70] = .ok (.fstpM32 p32 (.m32 (some .esi) none 112)) 3 ∧
    decode true [0xDD, 0x5E, 0x7B] = .ok (.fstpM64 p32 (.m32 (some .esi) none 123)) 3 ∧
    decode true [0xDB, 0x7E, 0x06] = .ok (.fstpM80 p32 (.m32 (some .esi) none 6)) 3 ∧
    decode true [0xD8, 0x66, 0x11] = .ok (.fsubM32 p32 (.m32 (some .esi) none 17)) 3 ∧
    decode true [0xDC, 0x66, 0x1C] = .ok (.fsubM64 p32 (.m32 (some .esi) none 28)) 3 ∧
    decode true [0xD8, 0x6E, 0x27] = .ok (.fsubrM32 p32 (.m32 (some .esi) none 39)) 3 ∧
    decode true [0xDC, 0x6E, 0x32] = .ok (.fsubrM64 p32 (.m32 (some .esi) none 50)) 3 :=
  ⟨rfl, rfl, rfl, rfl, rfl, rfl, rfl, rfl⟩

/-- Words of ADD_Eb_Gb to SBB_Gv_Ev (30_encoding.md, opcode table format `modrm`). -/
theorem test_decode_modrm_1 :
    decode true [0x00, 0xCA] = .ok (.addEbGb p32 (.reg .edx) .ecx) 2 ∧
    decode true [0x01, 0xA4, 0x8B, 0xE9, 0x30, 0x20, 0x10] = .ok (.addEvGv p32 (.mem (.m32 (some .ebx) (some (.ecx, 2)) 0x102030e9)) .esp) 7 ∧
    decode true [0x02, 0xFC] = .ok (.addGbEb p32 .edi (.reg .esp)) 2 ∧
    decode true [0x03, 0x94, 0x8B, 0xEB, 0x30, 0x20, 0x10] = .ok (.addGvEv p32 .edx (.mem (.m32 (some .ebx) (some (.ecx, 2)) 0x102030eb))) 7 ∧
    decode true [0x08, 0xD8] = .ok (.orEbGb p32 (.reg .eax) .ebx) 2 ∧
    decode true [0x09, 0xB4, 0x8B, 0xEF, 0x30, 0x20, 0x10] = .ok (.orEvGv p32 (.mem (.m32 (some .ebx) (some (.ecx, 2)) 0x102030ef)) .esi) 7 ∧
    decode true [0x0A, 0xCA] = .ok (.orGbEb p32 .ecx (.reg .edx)) 2 ∧
    decode true [0x0B, 0xA4, 0x8B, 0xF1, 0x30, 0x20, 0x10] = .ok (.orGvEv p32 .esp (.mem (.m32 (some .ebx) (some (.ecx, 2)) 0x102030f1))) 7 ∧
    decode true [0x10, 0xEE] = .ok (.adcEbGb p32 (.reg .esi) .ebp) 2 ∧
    decode true [0x11, 0x84, 0x8B, 0xF5, 0x30, 0x20, 0x10] = .ok (.adcEvGv p32 (.mem (.m32 (some .ebx) (some (.ecx, 2)) 0x102030f5)) .eax) 7 ∧
    decode true [0x12, 0xD8] = .ok (.adcGbEb p32 .ebx (.reg .eax)) 2 ∧
    decode true [0x13, 0xB4, 0x8B, 0xF7, 0x30, 0x20, 0x10] = .ok (.adcGvEv p32 .esi (.mem (.m32 (some .ebx) (some (.ecx, 2)) 0x102030f7))) 7 ∧
    decode true [0x18, 0xFC] = .ok (.sbbEbGb p32 (.reg .esp) .edi) 2 ∧
    decode true [0x19, 0x94, 0x8B, 0xFB, 0x30, 0x20, 0x10] = .ok (.sbbEvGv p32 (.mem (.m32 (some .ebx) (some (.ecx, 2)) 0x102030fb)) .edx) 7 ∧
    decode true [0x1A, 0xEE] = .ok (.sbbGbEb p32 .ebp (.reg .esi)) 2 ∧
    decode true [0x1B, 0x84, 0x8B, 0xFD, 0x30, 0x20, 0x10] = .ok (.sbbGvEv p32 .eax (.mem (.m32 (some .ebx) (some (.ecx, 2)) 0x102030fd))) 7 :=
  ⟨rfl, rfl, rfl, rfl, rfl, rfl, rfl, rfl, rfl, rfl, rfl, rfl, rfl, rfl, rfl, rfl⟩

/-- Words of AND_Eb_Gb to CMP_Gv_Ev (30_encoding.md, opcode table format `modrm`). -/
theorem test_decode_modrm_2 :
    decode true [0x20, 0xCA] = .ok (.andEbGb p32 (.reg .edx) .ecx) 2 ∧
    decode true [0x21, 0xA4, 0x8B, 0x01, 0x31, 0x20, 0x10] = .ok (.andEvGv p32 (.mem (.m32 (some .ebx) (some (.ecx, 2)) 0x10203101)) .esp) 7 ∧
    decode true [0x22, 0xFC] = .ok (.andGbEb p32 .edi (.reg .esp)) 2 ∧
    decode true [0x23, 0x94, 0x8B, 0x03, 0x31, 0x20, 0x10] = .ok (.andGvEv p32 .edx (.mem (.m32 (some .ebx) (some (.ecx, 2)) 0x10203103))) 7 ∧
    decode true [0x28, 0xD8] = .ok (.subEbGb p32 (.reg .eax) .ebx) 2 ∧
    decode true [0x29, 0xB4, 0x8B, 0x07, 0x31, 0x20, 0x10] = .ok (.subEvGv p32 (.mem (.m32 (some .ebx) (some (.ecx, 2)) 0x10203107)) .esi) 7 ∧
    decode true [0x2A, 0xCA] = .ok (.subGbEb p32 .ecx (.reg .edx)) 2 ∧
    decode true [0x2B, 0xA4, 0x8B, 0x09, 0x31, 0x20, 0x10] = .ok (.subGvEv p32 .esp (.mem (.m32 (some .ebx) (some (.ecx, 2)) 0x10203109))) 7 ∧
    decode true [0x30, 0xEE] = .ok (.xorEbGb p32 (.reg .esi) .ebp) 2 ∧
    decode true [0x31, 0x84, 0x8B, 0x0D, 0x31, 0x20, 0x10] = .ok (.xorEvGv p32 (.mem (.m32 (some .ebx) (some (.ecx, 2)) 0x1020310d)) .eax) 7 ∧
    decode true [0x32, 0xD8] = .ok (.xorGbEb p32 .ebx (.reg .eax)) 2 ∧
    decode true [0x33, 0xB4, 0x8B, 0x0F, 0x31, 0x20, 0x10] = .ok (.xorGvEv p32 .esi (.mem (.m32 (some .ebx) (some (.ecx, 2)) 0x1020310f))) 7 ∧
    decode true [0x38, 0xFC] = .ok (.cmpEbGb p32 (.reg .esp) .edi) 2 ∧
    decode true [0x39, 0x94, 0x8B, 0x13, 0x31, 0x20, 0x10] = .ok (.cmpEvGv p32 (.mem (.m32 (some .ebx) (some (.ecx, 2)) 0x10203113)) .edx) 7 ∧
    decode true [0x3A, 0xEE] = .ok (.cmpGbEb p32 .ebp (.reg .esi)) 2 ∧
    decode true [0x3B, 0x84, 0x8B, 0x15, 0x31, 0x20, 0x10] = .ok (.cmpGvEv p32 .eax (.mem (.m32 (some .ebx) (some (.ecx, 2)) 0x10203115))) 7 :=
  ⟨rfl, rfl, rfl, rfl, rfl, rfl, rfl, rfl, rfl, rfl, rfl, rfl, rfl, rfl, rfl, rfl⟩

/-- Words of TEST_Eb_Gb to BTS_Ev_Gv (30_encoding.md, opcode table format `modrm`). -/
theorem test_decode_modrm_3 :
    decode true [0x84, 0x84, 0x8B, 0x1D, 0x31, 0x20, 0x10] = .ok (.testEbGb p32 (.mem (.m32 (some .ebx) (some (.ecx, 2)) 0x1020311d)) .eax) 7 ∧
    decode true [0x85, 0xD8] = .ok (.testEvGv p32 (.reg .eax) .ebx) 2 ∧
    decode true [0x86, 0xB4, 0x8B, 0x1F, 0x31, 0x20, 0x10] = .ok (.xchgEbGb p32 (.mem (.m32 (some .ebx) (some (.ecx, 2)) 0x1020311f)) .esi) 7 ∧
    decode true [0x87, 0xCA] = .ok (.xchgEvGv p32 (.reg .edx) .ecx) 2 ∧
    decode true [0x88, 0xA4, 0x8B, 0x21, 0x31, 0x20, 0x10] = .ok (.movEbGb p32 (.mem (.m32 (some .ebx) (some (.ecx, 2)) 0x10203121)) .esp) 7 ∧
    decode true [0x89, 0xFC] = .ok (.movEvGv p32 (.reg .esp) .edi) 2 ∧
    decode true [0x8A, 0x94, 0x8B, 0x23, 0x31, 0x20, 0x10] = .ok (.movGbEb p32 .edx (.mem (.m32 (some .ebx) (some (.ecx, 2)) 0x10203123))) 7 ∧
    decode true [0x8B, 0xEE] = .ok (.movGvEv p32 .ebp (.reg .esi)) 2 ∧
    decode true [0x8C, 0xAC, 0x8B, 0x25, 0x31, 0x20, 0x10] = .ok (.movEwSreg p32 (.mem (.m32 (some .ebx) (some (.ecx, 2)) 0x10203125)) .gs) 7 ∧
    decode true [0x8D, 0x5E, 0x67] = .ok (.leaGvM p32 .ebx (.m32 (some .esi) none 103)) 3 ∧
    decode true [0x8E, 0x94, 0x8B, 0x27, 0x31, 0x20, 0x10] = .ok (.movSregEw p32 .ss (.mem (.m32 (some .ebx) (some (.ecx, 2)) 0x10203127))) 7 ∧
    decode true [0x0F, 0x21, 0xF0] = .ok (.movRDr p32 .eax 6) 3 ∧
    decode true [0x0F, 0x23, 0xFD] = .ok (.movDrR p32 7 .ebp) 3 ∧
    decode true [0x0F, 0xA3, 0xEE] = .ok (.btEvGv p32 (.reg .esi) .ebp) 3 ∧
    decode true [0x0F, 0xA5, 0xD8] = .ok (.shldEvGvCl p32 (.reg .eax) .ebx) 3 ∧
    decode true [0x0F, 0xAB, 0xCA] = .ok (.btsEvGv p32 (.reg .edx) .ecx) 3 :=
  ⟨rfl, rfl, rfl, rfl, rfl, rfl, rfl, rfl, rfl, rfl, rfl, rfl, rfl, rfl, rfl, rfl⟩

/-- Words of SHRD_Ev_Gv_CL to SETcc_Eb__0F_90+cc (30_encoding.md, opcode table format `modrm`). -/
theorem test_decode_modrm_4 :
    decode true [0x0F, 0xAD, 0xFC] = .ok (.shrdEvGvCl p32 (.reg .esp) .edi) 3 ∧
    decode true [0x0F, 0xAF, 0x94, 0x8B, 0x5B, 0x31, 0x20, 0x10] = .ok (.imulGvEv p32 .edx (.mem (.m32 (some .ebx) (some (.ecx, 2)) 0x1020315b))) 8 ∧
    decode true [0x0F, 0xB3, 0xEE] = .ok (.btrEvGv p32 (.reg .esi) .ebp) 3 ∧
    decode true [0x0F, 0xB6, 0x84, 0x8B, 0x5D, 0x31, 0x20, 0x10] = .ok (.movzxGvEb p32 .eax (.mem (.m32 (some .ebx) (some (.ecx, 2)) 0x1020315d))) 8 ∧
    decode true [0x0F, 0xB7, 0xD8] = .ok (.movzxGvEw p32 .ebx (.reg .eax)) 3 ∧
    decode true [0x0F, 0xBB, 0xB4, 0x8B, 0x5F, 0x31, 0x20, 0x10] = .ok (.btcEvGv p32 (.mem (.m32 (some .ebx) (some (.ecx, 2)) 0x1020315f)) .esi) 8 ∧
    decode true [0x0F, 0xBC, 0xCA] = .ok (.bsfGvEv p32 .ecx (.reg .edx)) 3 ∧
    decode true [0x0F, 0xBD, 0xA4, 0x8B, 0x61, 0x31, 0x20, 0x10] = .ok (.bsrGvEv p32 .esp (.mem (.m32 (some .ebx) (some (.ecx, 2)) 0x10203161))) 8 ∧
    decode true [0x0F, 0xBE, 0xFC] = .ok (.movsxGvEb p32 .edi (.reg .esp)) 3 ∧
    decode true [0x0F, 0xBF, 0x94, 0x8B, 0x63, 0x31, 0x20, 0x10] = .ok (.movsxGvEw p32 .edx (.mem (.m32 (some .ebx) (some (.ecx, 2)) 0x10203163))) 8 ∧
    decode true [0x0F, 0x9C, 0x84, 0x8B, 0x6F, 0x31, 0x20, 0x10] = .ok (.setccEb p32 .l (.mem (.m32 (some .ebx) (some (.ecx, 2)) 0x1020316f))) 8 :=
  ⟨rfl, rfl, rfl, rfl, rfl, rfl, rfl, rfl, rfl, rfl, rfl⟩

/-- Words of ADD_AL_Ib to CMP_eAX_Iv (30_encoding.md, opcode table format `op_imm`). -/
theorem test_decode_op_imm_1 :
    decode true [0x04, 0x3D] = .ok (.addAlIb p32 0x3d) 2 ∧
    decode true [0x05, 0xAD, 0xCD, 0xAB, 0x89] = .ok (.addEaxIv p32 0x89abcdad) 5 ∧
    decode true [0x0C, 0x8B] = .ok (.orAlIb p32 0x8b) 2 ∧
    decode true [0x0D, 0xB3, 0xCD, 0xAB, 0x89] = .ok (.orEaxIv p32 0x89abcdb3) 5 ∧
    decode true [0x14, 0xD9] = .ok (.adcAlIb p32 0xd9) 2 ∧
    decode true [0x15, 0xB9, 0xCD, 0xAB, 0x89] = .ok (.adcEaxIv p32 0x89abcdb9) 5 ∧
    decode true [0x1C, 0x27] = .ok (.sbbAlIb p32 0x27) 2 ∧
    decode true [0x1D, 0xBF, 0xCD, 0xAB, 0x89] = .ok (.sbbEaxIv p32 0x89abcdbf) 5 ∧
    decode true [0x24, 0x75] = .ok (.andAlIb p32 0x75) 2 ∧
    decode true [0x25, 0xC5, 0xCD, 0xAB, 0x89] = .ok (.andEaxIv p32 0x89abcdc5) 5 ∧
    decode true [0x2C, 0xC3] = .ok (.subAlIb p32 0xc3) 2 ∧
    decode true [0x2D, 0xCB, 0xCD, 0xAB, 0x89] = .ok (.subEaxIv p32 0x89abcdcb) 5 ∧
    decode true [0x34, 0x11] = .ok (.xorAlIb p32 0x11) 2 ∧
    decode true [0x35, 0xD1, 0xCD, 0xAB, 0x89] = .ok (.xorEaxIv p32 0x89abcdd1) 5 ∧
    decode true [0x3C, 0x5F] = .ok (.cmpAlIb p32 0x5f) 2 ∧
    decode true [0x3D, 0xD7, 0xCD, 0xAB, 0x89] = .ok (.cmpEaxIv p32 0x89abcdd7) 5 :=
  ⟨rfl, rfl, rfl, rfl, rfl, rfl, rfl, rfl, rfl, rfl, rfl, rfl, rfl, rfl, rfl, rfl⟩

/-- Words of PUSH_Iv to IN_eAX_Ib (30_encoding.md, opcode table format `op_imm`). -/
theorem test_decode_op_imm_2 :
    decode true [0x68, 0xD9, 0xCD, 0xAB, 0x89] = .ok (.pushIv p32 0x89abcdd9) 5 ∧
    decode true [0x6A, 0xA0] = .ok (.pushIbs p32 0xa0) 2 ∧
    decode true [0xA0, 0xEE, 0xCD, 0xAB, 0x89] = .ok (.movAlMoffs p32 0x89abcdee) 5 ∧
    decode true [0xA1, 0xEF, 0xCD, 0xAB, 0x89] = .ok (.movEaxMoffs p32 0x89abcdef) 5 ∧
    decode true [0xA2, 0xF0, 0xCD, 0xAB, 0x89] = .ok (.movMoffsAl p32 0x89abcdf0) 5 ∧
    decode true [0xA3, 0xF1, 0xCD, 0xAB, 0x89] = .ok (.movMoffsEax p32 0x89abcdf1) 5 ∧
    decode true [0xA8, 0xCB] = .ok (.testAlIb p32 0xcb) 2 ∧
    decode true [0xA9, 0xF3, 0xCD, 0xAB, 0x89] = .ok (.testEaxIv p32 0x89abcdf3) 5 ∧
    decode true [0xC2, 0x28, 0x13] = .ok (.retIw p32 0x1328) 3 ∧
    decode true [0xCD, 0x0C] = .ok (.intIb p32 0xc) 2 ∧
    decode true [0xE0, 0x26] = .ok (.loopneRel8 p32 0x26) 2 ∧
    decode true [0xE1, 0x33] = .ok (.loopeRel8 p32 0x33) 2 ∧
    decode true [0xE2, 0x40] = .ok (.loopRel8 p32 0x40) 2 ∧
    decode true [0xE3, 0x4D] = .ok (.jcxzRel8 p32 0x4d) 2 ∧
    decode true [0xE4, 0x5A] = .ok (.inAlIb p32 0x5a) 2 ∧
    decode true [0xE5, 0x67] = .ok (.inEaxIb p32 0x67) 2 :=
  ⟨rfl, rfl, rfl, rfl, rfl, rfl, rfl, rfl, rfl, rfl, rfl, rfl, rfl, rfl, rfl, rfl⟩

/-- Words of OUT_Ib_AL to Jcc_relv__0F_80+cc (30_encoding.md, opcode table format `op_imm`). -/
theorem test_decode_op_imm_3 :
    decode true [0xE6, 0x74] = .ok (.outIbAl p32 0x74) 2 ∧
    decode true [0xE7, 0x81] = .ok (.outIbEax p32 0x81) 2 ∧
    decode true [0xE8, 0x01, 0xCE, 0xAB, 0x89] = .ok (.callRelv p32 0x89abce01) 5 ∧
    decode true [0xE9, 0x02, 0xCE, 0xAB, 0x89] = .ok (.jmpRelv p32 0x89abce02) 5 ∧
    decode true [0xEA, 0x03, 0xCE, 0xAB, 0x89, 0x33, 0x24] = .ok (.jmpPtr p32 0x89abce03 0x2433) 7 ∧
    decode true [0xEB, 0xB5] = .ok (.jmpRel8 p32 0xb5) 2 ∧
    decode true [0x7E, 0xCA] = .ok (.jccRel8 p32 .le 0xca) 2 ∧
    decode true [0x0F, 0x85, 0x2E, 0xCE, 0xAB, 0x89] = .ok (.jccRelv p32 .ne 0x89abce2e) 6 :=
  ⟨rfl, rfl, rfl, rfl, rfl, rfl, rfl, rfl⟩

/-- Words of POP_SS to CLI (30_encoding.md, opcode table format `op`). -/
theorem test_decode_op_1 :
    decode true [0x17] = .ok (.popSs p32) 1 ∧
    decode true [0x90] = .ok (.nop p32) 1 ∧
    decode true [0x98] = .ok (.cbw p32) 1 ∧
    decode true [0x99] = .ok (.cwd p32) 1 ∧
    decode true [0x9B] = .ok (.fwait p32) 1 ∧
    decode true [0x9C] = .ok (.pushf p32) 1 ∧
    decode true [0x9D] = .ok (.popf p32) 1 ∧
    decode true [0xC3] = .ok (.ret p32) 1 ∧
    decode true [0xCC] = .ok (.int3 p32) 1 ∧
    decode true [0xCF] = .ok (.iret p32) 1 ∧
    decode true [0xEC] = .ok (.inAlDx p32) 1 ∧
    decode true [0xED] = .ok (.inEaxDx p32) 1 ∧
    decode true [0xEE] = .ok (.outDxAl p32) 1 ∧
    decode true [0xEF] = .ok (.outDxEax p32) 1 ∧
    decode true [0xF4] = .ok (.hlt p32) 1 ∧
    decode true [0xFA] = .ok (.cli p32) 1 :=
  ⟨rfl, rfl, rfl, rfl, rfl, rfl, rfl, rfl, rfl, rfl, rfl, rfl, rfl, rfl, rfl, rfl⟩

/-- Words of STI to none___guaranteed_invalid_opcode__raises_UD (30_encoding.md, opcode table format `op`). -/
theorem test_decode_op_2 :
    decode true [0xFB] = .ok (.sti p32) 1 ∧
    decode true [0x0F, 0x08] = .ok (.invd p32) 2 ∧
    decode true [0x0F, 0x09] = .ok (.wbinvd p32) 2 ∧
    decode true [0x0F, 0x30] = .ok (.wrmsr p32) 2 ∧
    decode true [0x0F, 0x31] = .ok (.rdtsc p32) 2 ∧
    decode true [0x0F, 0x32] = .ok (.rdmsr p32) 2 ∧
    decode true [0x0F, 0xA2] = .ok (.cpuid p32) 2 ∧
    decode true [0x0F, 0xAA] = .ok (.rsm p32) 2 ∧
    decode true [0x0F, 0xFF] = .ok (.illegal0FFF p32) 2 :=
  ⟨rfl, rfl, rfl, rfl, rfl, rfl, rfl, rfl, rfl⟩

/-- Words of IMUL_Gv_Ev_Iv to SHRD_Ev_Gv_Ib (30_encoding.md, opcode table format `modrm_imm`). -/
theorem test_decode_modrm_imm :
    decode true [0x69, 0xFC, 0xDA, 0xCD, 0xAB, 0x89] = .ok (.imulGvEvIv p32 .edi (.reg .esp) 0x89abcdda) 6 ∧
    decode true [0x6B, 0xEE, 0xAD] = .ok (.imulGvEvIbs p32 .ebp (.reg .esi) 0xad) 3 ∧
    decode true [0x0F, 0xA4, 0x84, 0x8B, 0x55, 0x31, 0x20, 0x10, 0x92] = .ok (.shldEvGvIb p32 (.mem (.m32 (some .ebx) (some (.ecx, 2)) 0x10203155)) .eax 0x92) 9 ∧
    decode true [0x0F, 0xAC, 0xA4, 0x8B, 0x59, 0x31, 0x20, 0x10, 0xC6] = .ok (.shrdEvGvIb p32 (.mem (.m32 (some .ebx) (some (.ecx, 2)) 0x10203159)) .esp 0xc6) 9 :=
  ⟨rfl, rfl, rfl, rfl⟩

/-- Words of INC_r16_r32 to BSWAP_r32 (30_encoding.md, opcode table format `opr`). -/
theorem test_decode_opr :
    decode true [0x43] = .ok (.incR p32 .ebx) 1 ∧
    decode true [0x48] = .ok (.decR p32 .eax) 1 ∧
    decode true [0x55] = .ok (.pushR p32 .ebp) 1 ∧
    decode true [0x5A] = .ok (.popR p32 .edx) 1 ∧
    decode true [0x97] = .ok (.xchgEaxR p32 .edi) 1 ∧
    decode true [0x0F, 0xCE] = .ok (.bswapR p32 .esi) 2 :=
  ⟨rfl, rfl, rfl, rfl, rfl, rfl⟩

/-- Words of MOV_r8_Ib to MOV_r16_r32_Iv (30_encoding.md, opcode table format `opr_imm`). -/
theorem test_decode_opr_imm :
    decode true [0xB4, 0xA3] = .ok (.movR8Ib p32 .esp 0xa3) 2 ∧
    decode true [0xB9, 0x2B, 0xCE, 0xAB, 0x89] = .ok (.movRIv p32 .ecx 0x89abce2b) 5 :=
  ⟨rfl, rfl⟩

/-! ### Integer arithmetic -/

/-- R362: FFFF_FFFFh + 1. -/
theorem test_add : runs true [0x83, 0xC0, 0x01] (withRegs ({ · with eax := 0xFFFFFFFF }) (prot 0)) (fun t =>
    t.gpr.eax == 0 && t.flags.cf && t.flags.zf && !t.flags.of && t.flags.af && t.flags.pf && !t.flags.sf && t.eip == 0x103) = true := by
  decide +kernel
/-- R363. -/
theorem test_or : runs true [0x0C, 0xF0] (withRegs ({ · with eax := 0x0F }) (prot 0)) (fun t =>
    t.gpr.eax == 0xFF && t.flags.sf && !t.flags.zf && t.flags.pf && !t.flags.cf) = true := by decide +kernel
/-- R364: the carry goes in. -/
theorem test_adc : runs true [0x83, 0xD0, 0x00] (withFlags ({ · with cf := true }) (prot 0)) (fun t =>
    t.gpr.eax == 1 && !t.flags.cf) = true := by decide +kernel
/-- R365: the borrow goes in. -/
theorem test_sbb : runs true [0x83, 0xD8, 0x00] (withFlags ({ · with cf := true }) (prot 0)) (fun t =>
    t.gpr.eax == 0xFFFFFFFF && t.flags.cf && t.flags.sf) = true := by decide +kernel
/-- R366. -/
theorem test_and : runs true [0x25, 0xFF, 0xFF, 0, 0] (withRegs ({ · with eax := 0x12345678 }) (prot 0)) (fun t =>
    t.gpr.eax == 0x5678 && !t.flags.zf && !t.flags.sf && t.flags.pf) = true := by decide +kernel
/-- R367. -/
theorem test_sub : runs true [0x83, 0xE8, 0x01] (prot 0) (fun t =>
    t.gpr.eax == 0xFFFFFFFF && t.flags.cf && t.flags.sf && t.flags.af && !t.flags.of) = true := by decide +kernel
/-- R368. -/
theorem test_xor : runs true [0x31, 0xC0] (withRegs ({ · with eax := 0xFFFF }) (prot 0)) (fun t =>
    t.gpr.eax == 0 && t.flags.zf && !t.flags.cf) = true := by decide +kernel
/-- R369: nothing is written. -/
theorem test_cmp : runs true [0x83, 0xF9, 0x14] (withRegs ({ · with ecx := 0x14 }) (prot 0)) (fun t =>
    t.gpr.ecx == 0x14 && t.flags.zf && !t.flags.cf) = true := by decide +kernel
/-- R370. -/
theorem test_test : runs true [0x85, 0xC0] (withRegs ({ · with eax := 0x80000000 }) (prot 0)) (fun t =>
    t.flags.sf && !t.flags.zf && t.flags.pf && !t.flags.cf && !t.flags.of) = true := by decide +kernel
/-- R371: CF stays. -/
theorem test_inc : runs true [0x41] (withFlags ({ · with cf := true }) (withRegs ({ · with ecx := 0xFFFFFFFF }) (prot 0))) (fun t =>
    t.gpr.ecx == 0 && t.flags.zf && t.flags.cf) = true := by decide +kernel
/-- R372. -/
theorem test_dec : runs true [0x49] (withRegs ({ · with ecx := 1 }) (prot 0)) (fun t =>
    t.gpr.ecx == 0 && t.flags.zf) = true := by decide +kernel
/-- R373. -/
theorem test_neg : runs true [0xF7, 0xD8] (withRegs ({ · with eax := 1 }) (prot 0)) (fun t =>
    t.gpr.eax == 0xFFFFFFFF && t.flags.cf && t.flags.sf) = true := by decide +kernel
/-- R373: the most negative value. -/
theorem test_neg_min : runs true [0xF6, 0xD8] (withRegs ({ · with eax := 0x80 }) (prot 0)) (fun t =>
    t.gpr.eax == 0x80 && t.flags.cf && t.flags.of) = true := by decide +kernel
/-- R374: flags stay. -/
theorem test_not : runs true [0xF6, 0xD0] (withRegs ({ · with eax := 0x55 }) (prot 0)) (fun t =>
    t.gpr.eax == 0xAA && t.flags == Flags.reset) = true := by decide +kernel
/-- R375. -/
theorem test_mul : runs true [0xF6, 0xE3] (withRegs ({ · with eax := 0x10, ebx := 0x10 }) (prot 0)) (fun t =>
    t.gpr.eax == 0x100 && t.flags.cf && t.flags.of) = true := by decide +kernel
/-- R376. -/
theorem test_imul : runs true [0xF6, 0xEB] (withRegs ({ · with eax := 0xFF, ebx := 2 }) (prot 0)) (fun t =>
    t.gpr.eax == 0xFFFE && !t.flags.cf && !t.flags.of) = true := by decide +kernel
/-- R377: a factor in memory. -/
theorem test_imul_memory : runs true [0x0F, 0xAF, 0x07] (withBytes 0x2000 [6] (withRegs ({ · with eax := 7, edi := 0x2000 }) (prot 0)))
    (fun t => t.gpr.eax == 42 && !t.flags.cf && !t.flags.of) = true := by decide +kernel
/-- R378. -/
theorem test_div : runs true [0xF7, 0xF1] (withRegs ({ · with eax := 100, ecx := 7 }) (prot 0)) (fun t =>
    t.gpr.eax == 14 && t.gpr.edx == 2) = true := by decide +kernel
/-- R378, R602: division by zero enters vector 0. -/
theorem test_div_zero : tookVector (exec (.divEv p16 (.reg .ecx)) (withBytes 0 [0x34, 0x12, 0x00, 0x20] real)) 0x2000 0x1234 = true := by
  decide +kernel
/-- R379. -/
theorem test_idiv : runs true [0xF7, 0xF9] (withRegs ({ · with eax := 0xFFFFFFF9, edx := 0xFFFFFFFF, ecx := 2 }) (prot 0)) (fun t =>
    t.gpr.eax == 0xFFFFFFFD && t.gpr.edx == 0xFFFFFFFF) = true := by decide +kernel

/-! ### Shifts and bits -/

/-- R382. -/
theorem test_rol : runs true [0xD0, 0xC0] (withRegs ({ · with eax := 0x81 }) (prot 0)) (fun t =>
    t.gpr.eax == 3 && t.flags.cf && t.flags.of) = true := by decide +kernel
/-- R383. -/
theorem test_ror : runs true [0xD0, 0xC8] (withRegs ({ · with eax := 1 }) (prot 0)) (fun t =>
    t.gpr.eax == 0x80 && t.flags.cf && t.flags.of) = true := by decide +kernel
/-- R384. -/
theorem test_shl : runs true [0xD1, 0xE0] (withRegs ({ · with eax := 0x40000001 }) (prot 0)) (fun t =>
    t.gpr.eax == 0x80000002 && !t.flags.cf && t.flags.of && t.flags.sf) = true := by decide +kernel
/-- R381: a count of 32 is a count of zero, and changes no flag. -/
theorem test_shl_zero : runs true [0xC1, 0xE0, 0x20] (withFlags ({ · with cf := true }) (withRegs ({ · with eax := 5 }) (prot 0))) (fun t =>
    t.gpr.eax == 5 && t.flags == { Flags.reset with cf := true }) = true := by decide +kernel
/-- R385. -/
theorem test_shr : runs true [0xD1, 0xE8] (withRegs ({ · with eax := 0x80000001 }) (prot 0)) (fun t =>
    t.gpr.eax == 0x40000000 && t.flags.cf && t.flags.of && !t.flags.zf) = true := by decide +kernel
/-- R386. -/
theorem test_sar : runs true [0xD1, 0xF8] (withRegs ({ · with eax := 0xFFFFFFF9 }) (prot 0)) (fun t =>
    t.gpr.eax == 0xFFFFFFFC && t.flags.cf) = true := by decide +kernel
/-- R387. -/
theorem test_shld : runs true [0x0F, 0xA4, 0xD8, 0x01] (withRegs ({ · with eax := 1, ebx := 0x80000000 }) (prot 0)) (fun t =>
    t.gpr.eax == 3 && !t.flags.cf) = true := by decide +kernel
/-- R388. -/
theorem test_shrd : runs true [0x0F, 0xAC, 0xD8, 0x01] (withRegs ({ · with eax := 2, ebx := 1 }) (prot 0)) (fun t =>
    t.gpr.eax == 0x80000001 && !t.flags.cf && t.flags.of) = true := by decide +kernel
/-- R390. -/
theorem test_bt : runs true [0x0F, 0xBA, 0xE0, 0x03] (withRegs ({ · with eax := 8 }) (prot 0)) (fun t =>
    t.flags.cf && t.gpr.eax == 8) = true := by decide +kernel
/-- R391. -/
theorem test_bts : runs true [0x0F, 0xBA, 0xE8, 0x1F] (prot 0) (fun t =>
    t.gpr.eax == 0x80000000 && !t.flags.cf) = true := by decide +kernel
/-- R392. -/
theorem test_btr : runs true [0x0F, 0xBA, 0xF0, 0x00] (withRegs ({ · with eax := 0xFFFFFFFF }) (prot 0)) (fun t =>
    t.gpr.eax == 0xFFFFFFFE && t.flags.cf) = true := by decide +kernel
/-- R393: a bit string reaches the doubleword below. -/
theorem test_btc : runs true [0x0F, 0xBB, 0x0B] (withRegs ({ · with ebx := 0x2000, ecx := 0xFFFFFFFF }) (prot 0)) (fun t =>
    t.mem.reads 0x1FFC 4 == [0, 0, 0, 0x80] && !t.flags.cf) = true := by decide +kernel
/-- R394. -/
theorem test_bsf : runs true [0x0F, 0xBC, 0xC3] (withRegs ({ · with ebx := 0x10 }) (prot 0)) (fun t =>
    t.gpr.eax == 4 && !t.flags.zf) = true := by decide +kernel
/-- R395. -/
theorem test_bsr : runs true [0x0F, 0xBD, 0xC3] (withRegs ({ · with ebx := 0x80000001 }) (prot 0)) (fun t =>
    t.gpr.eax == 31 && !t.flags.zf) = true := by decide +kernel
/-- R396. -/
theorem test_bswap : runs true [0x0F, 0xC8] (withRegs ({ · with eax := 0x12345678 }) (prot 0)) (fun t =>
    t.gpr.eax == 0x78563412) = true := by decide +kernel

/-! ### Moves -/

/-- R420: both encodings. -/
theorem test_mov : runs true [0x8B, 0xC3] (withRegs ({ · with ebx := 0x12345678 }) (prot 0)) (fun t => t.gpr.eax == 0x12345678) = true ∧
    runs true [0x89, 0xD8] (withRegs ({ · with ebx := 0x12345678 }) (prot 0)) (fun t => t.gpr.eax == 0x12345678) = true := by
  decide +kernel
/-- R421: an absolute offset. -/
theorem test_mov_moffs : runs true [0xA1, 0x00, 0x10, 0, 0] (withBytes 0x1000 [1, 2, 3, 4] (prot 0)) (fun t =>
    t.gpr.eax == 0x04030201) = true := by decide +kernel
/-- R422. -/
theorem test_mov_imm : runs true [0xB9, 0x10, 0, 0, 0] (prot 0) (fun t => t.gpr.ecx == 0x10) = true := by decide +kernel
/-- R21: the number 4 of a byte register is AH. -/
theorem test_mov_high : runs true [0xB4, 0x5A] (prot 0) (fun t => t.gpr.eax == 0x5A00 && t.gpr.esp == 0x1000) = true := by decide +kernel
/-- R423: with a 16-bit operand size the upper half stays. -/
theorem test_mov_from_seg : runs false [0x8C, 0xD8] { prot 0 with seg := { (prot 0).seg with ds := { data32 0 with sel := 0x23 } } }
    (fun t => t.gpr.eax == 0x23) = true := by decide +kernel
/-- R424, R644: in Real mode the base is sixteen times the selector; a load of SS holds interrupts off. -/
theorem test_mov_to_seg : runs false [0x8E, 0xD0] (withRegs ({ · with eax := 0x40 }) real) (fun t =>
    t.seg.ss.base == 0x400 && t.seg.ss.sel == 0x40 && t.intr.shadow == .ss) = true := by decide +kernel
/-- R425. -/
theorem test_movzx : runs true [0x0F, 0xB6, 0xC3] (withRegs ({ · with ebx := 0x80 }) (prot 0)) (fun t => t.gpr.eax == 0x80) = true := by
  decide +kernel
/-- R426. -/
theorem test_movsx : runs true [0x0F, 0xBE, 0xC3] (withRegs ({ · with ebx := 0x80 }) (prot 0)) (fun t => t.gpr.eax == 0xFFFFFF80) = true := by
  decide +kernel
/-- R427. -/
theorem test_xchg : runs true [0x93] (withRegs ({ · with eax := 1, ebx := 2 }) (prot 0)) (fun t =>
    t.gpr.eax == 2 && t.gpr.ebx == 1) = true := by decide +kernel
/-- R428. -/
theorem test_nop : runs true [0x90] (prot 0) (fun t => t.eip == 0x101 && t.gpr == (prot 0).gpr) = true := by decide +kernel
/-- R429. -/
theorem test_lea : runs true [0x8D, 0x44, 0x8B, 0x08] (withRegs ({ · with ebx := 0x10, ecx := 3 }) (prot 0)) (fun t =>
    t.gpr.eax == 0x24) = true := by decide +kernel
/-- R430. -/
theorem test_cbw : runs false [0x98] (withRegs ({ · with eax := 0x80 }) (prot 0)) (fun t => t.gpr.eax == 0xFF80) = true := by decide +kernel
/-- R431. -/
theorem test_cdq : runs true [0x99] (withRegs ({ · with eax := 0xFFFFFFF9 }) (prot 0)) (fun t => t.gpr.edx == 0xFFFFFFFF) = true := by
  decide +kernel
/-- R432, R274. -/
theorem test_sete : runs true [0x0F, 0x94, 0xC0] (withFlags ({ · with zf := true }) (prot 0)) (fun t => t.gpr.eax == 1) = true := by
  decide +kernel

/-! ### Stack and control transfer -/

/-- R441. -/
theorem test_push : runs true [0x50] (withRegs ({ · with eax := 0xAABBCCDD }) (prot 0)) (fun t =>
    t.gpr.esp == 0xFFC && t.mem.reads 0xFFC 4 == [0xDD, 0xCC, 0xBB, 0xAA]) = true := by decide +kernel
/-- R442: POP ESP ends with the value popped. -/
theorem test_pop_esp : runs true [0x5C] (withBytes 0x1000 [0x78, 0x56, 0x34, 0x12] (prot 0)) (fun t =>
    t.gpr.esp == 0x12345678) = true := by decide +kernel
/-- R443: POP SS in Real mode. -/
theorem test_pop_ss : runs false [0x17] (withBytes 0x1000 [0x40, 0] real) (fun t =>
    t.seg.ss.base == 0x400 && t.gpr.esp == 0x1002 && t.intr.shadow == .ss) = true := by decide +kernel
/-- R334: a Virtual-8086 program under VME sees VIF in the place of IF, and IOPL as 3. -/
theorem test_pushf_vme : runs false [0x9C] { withFlags ({ · with ifl := true }) v86 with cr := { v86.cr with cr4 := 1 } } (fun t =>
    t.mem.reads 0xFFE 2 == [0x02, 0x30]) = true := by decide +kernel
/-- R335: at level 3 with IOPL 0 the image cannot clear IF. -/
theorem test_popf_user : runs true [0x9D] (withFlags ({ · with ifl := true }) (prot 3)) (fun t =>
    t.flags.ifl && t.flags.iopl == 0 && t.gpr.esp == 0x1004) = true := by decide +kernel
/-- R451: relative to the next instruction. -/
theorem test_jmp : runs true [0xEB, 0x05] { prot 0 with eip := 0x1000 } (fun t => t.eip == 0x1007) = true := by decide +kernel
/-- R452. -/
theorem test_jmp_reg : runs true [0xFF, 0xE0] (withRegs ({ · with eax := 0x2000 }) (prot 0)) (fun t => t.eip == 0x2000) = true := by
  decide +kernel
/-- R453: taken and not taken. -/
theorem test_je : runs true [0x74, 0x10] (withFlags ({ · with zf := true }) (prot 0)) (fun t => t.eip == 0x112) = true ∧
    runs true [0x74, 0x10] (prot 0) (fun t => t.eip == 0x102) = true := by decide +kernel
/-- R454. -/
theorem test_jecxz : runs true [0xE3, 0x02] { prot 0 with eip := 0 } (fun t => t.eip == 4) = true := by decide +kernel
/-- R455. -/
theorem test_loop : runs true [0xE2, 0xFE] { withRegs ({ · with ecx := 2 }) (prot 0) with eip := 0x10 } (fun t =>
    t.eip == 0x10 && t.gpr.ecx == 1) = true := by decide +kernel
/-- R455: LOOPNE ends when ZF is set, LOOPE when it is clear. -/
theorem test_loopne : runs true [0xE0, 0xFE] (withFlags ({ · with zf := true }) (withRegs ({ · with ecx := 2 }) (prot 0))) (fun t =>
    t.eip == 0x102 && t.gpr.ecx == 1) = true ∧
    runs true [0xE1, 0xFE] (withRegs ({ · with ecx := 2 }) (prot 0)) (fun t => t.eip == 0x102) = true := by decide +kernel
/-- R456. -/
theorem test_call : runs true [0xE8, 0x20, 0, 0, 0] (prot 0) (fun t =>
    t.gpr.esp == 0xFFC && t.mem.reads 0xFFC 4 == [0x05, 0x01, 0, 0] && t.eip == 0x125) = true := by decide +kernel
/-- R457. -/
theorem test_call_reg : runs true [0xFF, 0xD0] { withRegs ({ · with eax := 0x3000 }) (prot 0) with eip := 0x200 } (fun t =>
    t.eip == 0x3000 && t.mem.reads 0xFFC 2 == [0x02, 0x02]) = true := by decide +kernel
/-- R458: RET with bytes to drop. -/
theorem test_ret : runs true [0xC2, 0x08, 0x00] (withBytes 0x1000 [0x34, 0x12] (prot 0)) (fun t =>
    t.eip == 0x1234 && t.gpr.esp == 0x100C) = true := by decide +kernel
/-- R459: a far jump in Real mode. -/
theorem test_jmp_far : runs false [0xEA, 0x34, 0x12, 0x00, 0x20] real (fun t =>
    t.seg.cs.base == 0x20000 && t.seg.cs.sel == 0x2000 && t.eip == 0x1234) = true := by decide +kernel
/-- R450, R601: a target beyond the code segment raises GP(0), vector 13. -/
theorem test_jmp_limit : tookVector (exec (.jmpEv ⟨false, none, .o32, .o16⟩ (.reg .eax))
    (withBytes 52 [0x34, 0x12, 0x00, 0x20] (withRegs ({ · with eax := 0x10000 }) real))) 0x2000 0x1234 = true := by decide +kernel

/-! ### Interrupts -/

/-- R332: a Virtual-8086 program under VME clears VIF, not IF. -/
theorem test_cli_vme : runs false [0xFA]
    { withFlags ({ · with ifl := true, vif := true }) v86 with cr := { v86.cr with cr4 := 1 } } (fun t =>
    !t.flags.vif && t.flags.ifl) = true := by decide +kernel
/-- R333: STI holds INTR off for one instruction. -/
theorem test_sti : runs true [0xFB] (prot 0) (fun t => t.flags.ifl && t.intr.shadow == .sti) = true := by decide +kernel
/-- R336, R622: INT 21h in Real mode pushes FLAGS, CS and the next IP, and enters vector 21h. -/
theorem test_int : runs false [0xCD, 0x21] (withBytes 0x84 [0x34, 0x12, 0x00, 0x20] real) (fun t =>
    t.gpr.esp == 0xFFA && t.mem.reads 0xFFA 6 == [0x02, 0x01, 0x00, 0x10, 0x02, 0x00] && t.seg.cs.sel == 0x2000 &&
    t.eip == 0x1234) = true := by decide +kernel
/-- R343: INT3 enters vector 3. -/
theorem test_int3 : runs false [0xCC] (withBytes 12 [0x34, 0x12, 0x00, 0x20] real) (fun t =>
    t.eip == 0x1234 && t.mem.reads 0xFFA 2 == [0x01, 0x01]) = true := by decide +kernel
/-- R313: the guaranteed invalid opcode enters vector 6 and saves its own address. -/
theorem test_illegal : runs false [0x0F, 0xFF] (withBytes 24 [0x34, 0x12, 0x00, 0x20] real) (fun t =>
    t.eip == 0x1234 && t.mem.reads 0xFFA 2 == [0x00, 0x01]) = true := by decide +kernel
/-- R340: IRET in Real mode. -/
theorem test_iret : runs false [0xCF] (withBytes 0x1000 [0x02, 0x01, 0x00, 0x10, 0x02, 0x02] real) (fun t =>
    t.eip == 0x102 && t.seg.cs.base == 0x10000 && t.flags.ifl && t.gpr.esp == 0x1006) = true := by decide +kernel
/-- R623: INT 21h in Protected mode through a 32-bit interrupt gate of the same level. -/
theorem test_int_gate : runs true [0xCD, 0x21]
    (withBytes 0x4108 [0x00, 0x20, 0x08, 0x00, 0x00, 0x8E, 0x00, 0x00]
      (withBytes 0x3008 [0xFF, 0xFF, 0, 0, 0, 0x9B, 0xCF, 0]
        { withFlags ({ · with ifl := true }) (prot 0) with
          sys := { SysRegs.reset with gdtr := { base := 0x3000, limit := 0x1F }, idtr := { base := 0x4000, limit := 0x7FF } } }))
    (fun t => t.eip == 0x2000 && t.gpr.esp == 0xFF4 && !t.flags.ifl &&
      t.mem.reads 0xFF4 12 == [0x02, 0x01, 0, 0, 0x08, 0, 0, 0, 0x02, 0x02, 0, 0]) = true := by decide +kernel

/-! ### System instructions -/

/-- R481. -/
theorem test_hlt : runs true [0xF4] (prot 0) (fun t => t.clock == .halt && t.eip == 0x101) = true := by decide +kernel
/-- R482 to R484: INVD, WBINVD, INVLPG. -/
theorem test_invd : runs true [0x0F, 0x08] (prot 0) (fun t => t.bus == [.special 0xFD 0 0] && t.eip == 0x102) = true ∧
    runs true [0x0F, 0x09] (prot 0) (fun t => t.bus == [.special 0xFD 0 0, .special 0xF7 0 0]) = true ∧
    runs true [0x0F, 0x01, 0x38] (prot 0) (fun t => t.cache.tlb == [] && t.eip == 0x103) = true := by decide +kernel
/-- R487: OUT 80h,AL. -/
theorem test_out : runs true [0xE6, 0x80] (withRegs ({ · with eax := 0x5A }) (prot 0)) (fun t =>
    t.bus == [.ioWrite 0x80 1 0x5A true false]) = true := by decide +kernel
/-- R103, R192: OUT DX,EAX at port 7 is two cycles, the higher part first. -/
theorem test_out_split : runs true [0xEF] (withRegs ({ · with eax := 0x44332211, edx := 7 }) (prot 0)) (fun t =>
    t.bus == [.ioWrite 7 1 0x11 true false, .ioWrite 8 3 0x443322 true false]) = true := by decide +kernel
/-- R485: IN AL,60h reads one byte; the value is from outside. -/
theorem test_in : runs true [0xE4, 0x60] (withRegs ({ · with eax := 0x12345600 }) (prot 0)) (fun t =>
    t.eip == 0x102 && (match t.bus with | [.ioRead p n _ _ _] => p == 0x60 && n == 1 | _ => false)) = true := by decide +kernel
/-- R490: MOV CR0,EAX enters Protected mode. -/
theorem test_mov_cr0 : runs false [0x0F, 0x22, 0xC0] (withRegs ({ · with eax := 0x60000011 }) real) (fun t =>
    t.cr.cr0 == 0x60000011) = true := by decide +kernel
/-- R491: after RESET. -/
theorem test_read_cr0 : runs false [0x0F, 0x20, 0xC0] State.reset (fun t => t.gpr.eax == 0x60000010) = true := by decide +kernel
/-- R492, R493, R494: CR2 and CR3; the reserved bits of CR3 read as 0. -/
theorem test_mov_cr3 : runs false [0x0F, 0x22, 0xD8] (withRegs ({ · with eax := 0x12345FFF }) real) (fun t =>
    t.cr.cr3 == 0x12345018) = true ∧
    runs false [0x0F, 0x22, 0xD0] (withRegs ({ · with eax := 0x12345FFF }) real) (fun t => t.cr.cr2 == 0x12345FFF) = true := by
  decide +kernel
/-- R304, R305. -/
theorem test_mov_cr4 : runs true [0x0F, 0x22, 0xE0] (withRegs ({ · with eax := 0x10 }) (prot 0)) (fun t => t.cr.cr4 == 0x10) = true ∧
    runs false [0x0F, 0x20, 0xE0] State.reset (fun t => t.gpr.eax == 0) = true := by decide +kernel
/-- R497, R42: after RESET. -/
theorem test_read_dr6 : runs false [0x0F, 0x21, 0xF0] State.reset (fun t => t.gpr.eax == 0xFFFF0FF0) = true := by decide +kernel
/-- R496. -/
theorem test_mov_dr0 : runs false [0x0F, 0x23, 0xC1] (withRegs ({ · with ecx := 0x1234 }) real) (fun t => t.dr.dr0 == 0x1234) = true := by
  decide +kernel
/-- R500. -/
theorem test_lgdt : runs true [0x0F, 0x01, 0x13] (withBytes 0x2000 [0x17, 0, 0, 0x10, 0, 0] (withRegs ({ · with ebx := 0x2000 }) (prot 0)))
    (fun t => t.sys.gdtr == { base := 0x1000, limit := 0x17 }) = true := by decide +kernel
/-- R501: with 16-bit operands the base has 24 bits. -/
theorem test_lidt : runs false [0x67, 0x0F, 0x01, 0x1B] (withBytes 0x2000 [0x17, 0, 0, 0x10, 0, 0xFF] (withRegs ({ · with ebx := 0x2000 }) real))
    (fun t => t.sys.idtr == { base := 0x1000, limit := 0x17 }) = true := by decide +kernel
/-- R502, R503: LLDT with a null selector; LTR marks the TSS busy in memory. -/
theorem test_lldt : runs true [0x0F, 0x00, 0xD0] (prot 0) (fun t => t.sys.ldtr.sel == 0) = true ∧
    runs true [0x0F, 0x00, 0xD8] (withBytes 0x3018 [0x67, 0, 0, 0x50, 0, 0x89, 0, 0] (withRegs ({ · with eax := 0x18 })
      { prot 0 with sys := { SysRegs.reset with gdtr := { base := 0x3000, limit := 0x1F } } }))
      (fun t => t.sys.tr.sel == 0x18 && t.sys.tr.base == 0x5000 && t.mem.read 0x301D == 0x8B) = true := by decide +kernel
/-- R300: the vendor string. -/
theorem test_cpuid : runs true [0x0F, 0xA2] (prot 0) (fun t =>
    t.gpr.eax == 1 && t.gpr.ebx == 0x68747541 && t.gpr.edx == 0x69746E65 && t.gpr.ecx == 0x444D4163) = true := by decide +kernel
/-- R303: equal and not equal. -/
theorem test_cmpxchg8b : runs true [0x0F, 0xC7, 0x0E] (withBytes 0x2000 [2, 0, 0, 0, 1]
      (withRegs ({ · with esi := 0x2000, edx := 1, eax := 2, ecx := 0xAAAAAAAA, ebx := 0xBBBBBBBB }) (prot 0)))
      (fun t => t.flags.zf && t.mem.reads 0x2000 8 == [0xBB, 0xBB, 0xBB, 0xBB, 0xAA, 0xAA, 0xAA, 0xAA]) = true ∧
    runs true [0x0F, 0xC7, 0x0E] (withBytes 0x2000 [2, 0, 0, 0, 1] (withRegs ({ · with esi := 0x2000 }) (prot 0)))
      (fun t => !t.flags.zf && t.gpr.edx == 1 && t.gpr.eax == 2) = true := by decide +kernel
/-- R306. -/
theorem test_rdtsc : runs true [0x0F, 0x31] { prot 0 with msr := { State.reset.msr with tsc := 0x180000000 } } (fun t =>
    t.gpr.edx == 1 && t.gpr.eax == 0x80000000) = true := by decide +kernel
/-- R307, R308. -/
theorem test_rdmsr : runs true [0x0F, 0x32] (withRegs ({ · with ecx := 0x10 }) { prot 0 with msr := { State.reset.msr with tsc := 0x180000000 } })
    (fun t => t.gpr.edx == 1 && t.gpr.eax == 0x80000000) = true ∧
    runs true [0x0F, 0x30] (withRegs ({ · with ecx := 0x10, edx := 2, eax := 3 }) (prot 0)) (fun t => t.msr.tsc == 0x200000003) = true := by
  decide +kernel
/-- R312: RSM outside SMM is invalid, vector 6. -/
theorem test_rsm : tookVector (exec (.rsm p16) (withBytes 24 [0x34, 0x12, 0x00, 0x20] real)) 0x2000 0x1234 = true := by decide +kernel
/-- R703: the registers of SMM entry. -/
theorem test_smi : (smmRegisters (prot 0)).eip = 0x8000 ∧ (smmRegisters (prot 0)).seg.cs.base = 0x30000 ∧
    (smmRegisters (prot 0)).cr.cr0 = 0x60000010 ∧ (smmRegisters (prot 0)).dr.dr7 = 0x400 := by decide +kernel
/-- R712: EAX in the save area. -/
theorem test_save_area : saved (saveImage (withRegs ({ · with eax := 0x12345678 }) (prot 0))) 0xFFD0 4 = 0x12345678 := by
  decide +kernel

/-! ### Floating point -/

/-- R540: FLD of a real_32. -/
theorem test_fld32 : runs true [0xD9, 0x00] (withBytes 0x2000 [0, 0, 0x80, 0x3F] (withRegs ({ · with eax := 0x2000 }) (withFpu [] (prot 0))))
    (fun t => t.fpu.st 0 == 0x3FFF8000000000000000) = true := by decide +kernel
/-- R541: FST to a real_64. -/
theorem test_fst64 : runs true [0xDD, 0x13] (withRegs ({ · with ebx := 0x2000 }) (withFpu [0x3FFF8000000000000000] (prot 0))) (fun t =>
    t.mem.reads 0x2000 8 == [0, 0, 0, 0, 0, 0, 0xF0, 0x3F]) = true := by decide +kernel
/-- R542: FSTP to a real_80 pops. -/
theorem test_fstp80 : runs true [0xDB, 0x3E] (withRegs ({ · with esi := 0x2000 }) (withFpu [0x3FFF8000000000000000] (prot 0))) (fun t =>
    t.mem.reads 0x2000 10 == [0, 0, 0, 0, 0, 0, 0, 0x80, 0xFF, 0x3F] && t.fpu.sw.top == 0 && t.fpu.empty 7) = true := by decide +kernel
/-- R543: FILD of a word. -/
theorem test_fild : runs true [0xDF, 0x00] (withBytes 0x2000 [0xFF, 0xFF] (withRegs ({ · with eax := 0x2000 }) (withFpu [] (prot 0))))
    (fun t => t.fpu.st 0 == 0xBFFF8000000000000000) = true := by decide +kernel
/-- R544: 2.5 rounds to 2, to nearest even. -/
theorem test_fist : runs true [0xDB, 0x13] (withRegs ({ · with ebx := 0x2000 }) (withFpu [0x4000A000000000000000] (prot 0))) (fun t =>
    t.mem.reads 0x2000 4 == [2, 0, 0, 0] && t.fpu.sw.pe) = true := by decide +kernel
/-- R545: -1.5 toward zero is -1. -/
theorem test_fistp : runs true [0xDF, 0x3B] (withRegs ({ · with ebx := 0x2000 })
      { withFpu [0xBFFFC000000000000000] (prot 0) with fpu := { (withFpu [0xBFFFC000000000000000] (prot 0)).fpu with cw := 0x0F7F } })
    (fun t => t.mem.reads 0x2000 8 == [0xFF, 0xFF, 0xFF, 0xFF, 0xFF, 0xFF, 0xFF, 0xFF] && t.fpu.sw.top == 0) = true := by decide +kernel
/-- R546. -/
theorem test_fxch : runs true [0xD9, 0xC9] (withFpu [0x3FFF8000000000000000, 0x40008000000000000000] (prot 0)) (fun t =>
    t.fpu.st 0 == 0x40008000000000000000 && t.fpu.st 1 == 0x3FFF8000000000000000) = true := by decide +kernel
/-- R547: 1.0 + 2.0. -/
theorem test_fadd : runs true [0xD8, 0xC1] (withFpu [0x3FFF8000000000000000, 0x40008000000000000000] (prot 0)) (fun t =>
    t.fpu.st 0 == 0x4000C000000000000000) = true := by decide +kernel
/-- R548: the sum is left in ST(0) after the pop. -/
theorem test_faddp : runs true [0xDE, 0xC1] (withFpu [0x3FFF8000000000000000, 0x40008000000000000000] (prot 0)) (fun t =>
    t.fpu.st 0 == 0x4000C000000000000000 && t.fpu.sw.top == 7) = true := by decide +kernel
/-- R549: 0.5 + 3. -/
theorem test_fiadd : runs true [0xDE, 0x00] (withBytes 0x2000 [3] (withRegs ({ · with eax := 0x2000 }) (withFpu [0x3FFE8000000000000000] (prot 0))))
    (fun t => t.fpu.st 0 == 0x4000E000000000000000) = true := by decide +kernel
/-- R550: 1.0 - 1.0 is +0. -/
theorem test_fsub : runs true [0xD8, 0xE1] (withFpu [0x3FFF8000000000000000, 0x3FFF8000000000000000] (prot 0)) (fun t =>
    t.fpu.st 0 == 0 && !t.fpu.sw.pe) = true := by decide +kernel
/-- R555: 5 - 1.0. -/
theorem test_fisubr : runs true [0xDA, 0x28] (withBytes 0x2000 [5] (withRegs ({ · with eax := 0x2000 }) (withFpu [0x3FFF8000000000000000] (prot 0))))
    (fun t => t.fpu.st 0 == 0x40018000000000000000) = true := by decide +kernel
/-- R556: 1.5 times -2.0. -/
theorem test_fmul : runs true [0xD8, 0xC9] (withFpu [0x3FFFC000000000000000, 0xC0008000000000000000] (prot 0)) (fun t =>
    t.fpu.st 0 == 0xC000C000000000000000) = true := by decide +kernel
/-- R559: 1.0 is below 2.0. -/
theorem test_fcom : runs true [0xD8, 0xD1] (withFpu [0x3FFF8000000000000000, 0x40008000000000000000] (prot 0)) (fun t =>
    !t.fpu.sw.c3 && !t.fpu.sw.c2 && t.fpu.sw.c0) = true := by decide +kernel
/-- R567: -0 is equal to zero. -/
theorem test_ftst : runs true [0xD9, 0xE4] (withFpu [0x80000000000000000000] (prot 0)) (fun t =>
    t.fpu.sw.c3 && !t.fpu.sw.c2 && !t.fpu.sw.c0) = true := by decide +kernel
/-- R568: an empty register. -/
theorem test_fxam : runs true [0xD9, 0xE5] (withFpu [] (prot 0)) (fun t => t.fpu.sw.c3 && !t.fpu.sw.c2 && t.fpu.sw.c0) = true := by
  decide +kernel
/-- R569. -/
theorem test_fabs : runs true [0xD9, 0xE1] (withFpu [0xC000C000000000000000] (prot 0)) (fun t => t.fpu.st 0 == 0x4000C000000000000000) = true := by
  decide +kernel
/-- R570. -/
theorem test_fchs : runs true [0xD9, 0xE0] (withFpu [0] (prot 0)) (fun t => t.fpu.st 0 == 0x80000000000000000000) = true := by
  decide +kernel
/-- R571: 2.5 rounds to 2.0. -/
theorem test_frndint : runs true [0xD9, 0xFC] (withFpu [0x4000A000000000000000] (prot 0)) (fun t =>
    t.fpu.st 0 == 0x40008000000000000000) = true := by decide +kernel
/-- R572: 1.0 scaled by 3.5, cut to 3. -/
theorem test_fscale : runs true [0xD9, 0xFD] (withFpu [0x3FFF8000000000000000, 0x4000E000000000000000] (prot 0)) (fun t =>
    t.fpu.st 0 == 0x40028000000000000000) = true := by decide +kernel
/-- R573: 8.0 gives the exponent 3.0 and the significand 1.0. -/
theorem test_fxtract : runs true [0xD9, 0xF4] (withFpu [0x40028000000000000000] (prot 0)) (fun t =>
    t.fpu.st 1 == 0x4000C000000000000000 && t.fpu.st 0 == 0x3FFF8000000000000000) = true := by decide +kernel
/-- R574. -/
theorem test_fdecstp : runs true [0xD9, 0xF6] (withFpu [] (prot 0)) (fun t => t.fpu.sw.top == 7) = true := by decide +kernel
/-- R575, R576. -/
theorem test_fnop : runs true [0xD9, 0xD0] (withFpu [] (prot 0)) (fun t => t.eip == 0x102) = true ∧
    runs true [0x9B] (withFpu [] (prot 0)) (fun t => t.eip == 0x101) = true := by decide +kernel
/-- R532: TS raises NM, vector 7. -/
theorem test_fpu_ts : tookVector (exec (.fabs p16) { withBytes 28 [0x34, 0x12, 0x00, 0x20] real with cr := { real.cr with cr0 := 0x60000018 } })
    0x2000 0x1234 = true := by decide +kernel

/-! ### The machine -/

/-- R70, R772: the first instruction after RESET, a NOP placed at FFFF_FFF0h. -/
theorem test_step_nop : nexts (step (State.reset.withFetchWord 24 0x009000)) (fun t => t.eip == 0xFFF1) = true := by decide +kernel
/-- R30, R646: a far jump is the usual first instruction. -/
theorem test_step_jmp : nexts (step (State.reset.placeBytes State.reset.eip [0xEA, 0x5B, 0xE0, 0x00, 0xF0])) (fun t =>
    t.eip == 0xE05B && t.seg.cs.base == 0xF0000) = true := by decide +kernel
/-- R674: an instruction begun with TF set is followed by a debug trap. -/
theorem test_step_trap : nexts (step (withFlags ({ · with tf := true }) (State.reset.withFetchWord 24 0x009000))) (fun t =>
    t.intr.dbTrap && t.dr.dr6 == 0xFFFF4FF0) = true := by decide +kernel
/-- R743, R744: STPCLK# leads to Stop Grant. -/
theorem test_step_stpclk : nexts (step { prot 0 with pins := { Pins.idle with stpclk := true } }) (fun t =>
    t.clock == .stopGrant .normal) = true := by decide +kernel
/-- R210, R234: with HOLD asserted and the code not cached nothing is done, and BREQ asks for the bus. -/
theorem test_step_hold : nexts (step { withBytes 0x100 [0x90] (prot 0) with pins := { Pins.idle with hold := true } }) (fun t =>
    t.eip == 0x100 && t.breq) = true := by decide +kernel
/-- R628: a fault on the fetch of the first instruction of a GP handler is a double fault, vector 8, whatever RF its image has. -/
theorem test_double_fault (b : Bool) :
    let s := withBytes 32 [0x34, 0x12, 0x00, 0x20]
      { real with eip := 0x10000, intr := { real.intr with handling := some ⟨13, .exception, 0x100⟩ } }
    let e := lateDoubleFault ⟨13, .exception, 0x100⟩ s
    (second (EventKind.exception.cls 13) (excClass vGP) = .doubleFault ∧ e.vec = 8) ∧
    nexts (takeEvent 8 { e with img := { e.img with rf := b } } s) (fun t =>
      t.seg.cs.sel == 0x2000 && t.eip == 0x1234 && t.mem.reads 0xFFA 2 == [0x00, 0x01]) = true := by
  cases b <;> exact ⟨⟨by decide +kernel, rfl⟩, by decide +kernel⟩
/-- R137, R237: an inquire cycle with INV at a modified line reports HITM#, and the line is gone. -/
theorem test_inquire :
    let l : DLine := { line := 0x80, way := 0, ltag := none, mesi := .modified, back := none }
    let s := { prot 0 with
      cr := { (prot 0).cr with cr0 := 0x11 }, pins := { Pins.idle with ahold := true },
      cache := { Caches.empty with dlines := [l] } }
    (inquire 0x80 true true s).hit = true ∧ (inquire 0x80 true true s).hitm = true ∧
    (inquire 0x80 true true s).st.cache.dlines = [] ∧ (inquire 0x80 true true s).apchk = false := by decide +kernel
/-- R236, R239: of two inquire cycles during one step, a miss and then one at a modified line, each is answered: HITM# at the end, and one
writeback. -/
theorem test_two_inquires :
    let l : DLine := { line := 0x80, way := 0, ltag := none, mesi := .modified, back := none }
    let s := { prot 0 with
      cr := { (prot 0).cr with cr0 := 0x11 }, pins := { Pins.idle with ahold := true },
      cache := { Caches.empty with dlines := [l] } }
    nexts (step (inquireDuring 0x80 true false true 0 (inquireDuring 0x90 true false false 0 s))) (fun t =>
      t.cache.hitm && t.cycles.length == 1 && t.cache.dlines.isEmpty && t.cache.snoops.isEmpty) = true := by decide +kernel
/-- R7, R278: SLDT is refused by name in Real mode too. -/
theorem test_step_group6 : nexts (step (withBytes 0x10100 [0x0F, 0x00, 0xC0] real)) (fun _ => true) = false ∧
    decode false [0x0F, 0x00, 0xC0] = .refused "SLDT" := by decide +kernel
/-- R12, R147: a write that reaches ROM changes nothing. -/
theorem test_rom : runs true [0x89, 0x03] { withRegs ({ · with eax := 0x55, ebx := 0x2000 }) (prot 0) with
      plat := { (prot 0).plat with regions := [⟨0x2000, 0x3000, .rom, true, true, false⟩] } } (fun t =>
    t.mem.read 0x2000 == 0 && t.eip == 0x102) = true := by decide +kernel
/-- R120, R126: a fetch through two page-table levels sets Accessed in both entries. -/
theorem test_step_paged : nexts (step (withBytes 0x5100 [0x90] (withBytes 0x2000 [0x01, 0x50] (withBytes 0x1000 [0x01, 0x20]
      { prot 0 with cr := { (prot 0).cr with cr0 := 0xE0000011, cr3 := 0x1000 } })))) (fun t =>
      t.eip == 0x101 && t.mem.read 0x1000 == 0x21 && t.mem.read 0x2000 == 0x21) = true := by decide +kernel

end Sys2Proof.Tests
end

