-- ==== Sys2Proof/Tests/Witness.lean ====
section
/-! SUPPORT. For each statement with hypotheses, a concrete state and operands that meet them together: one witness for each
clause, at boundary values where a clause has a range. -/

set_option Elab.async false

namespace Sys2Proof.Tests

open Sys2Proof Sys2Proof.Machine

/-- The doubleword at EBX. -/
def mEbx : MemOp := .m32 (some .ebx) none 0
/-- A state whose EBX points at free memory. -/
def sMem : State := withRegs ({ · with ebx := 0x2000 }) (prot 0)

/-! ### Integer instructions -/

theorem witness_AluResult :
    (IsAlu (.adcEvGv p32 (.mem mEbx) .ecx) ⟨.adc, p32, .d, .mem mEbx, .rm (.reg .ecx)⟩ ∧ sMem.flat = true ∧
      sMem.mayUse .d true (placeOf p32 sMem.gpr (.mem mEbx)) = true ∧ sMem.maySrc p32 .d (.rm (.reg .ecx)) = true) ∧
    (IsAlu (.cmpAlIb p32 0x80) ⟨.cmp, p32, .b, .reg .eax, .imm 0xFFFFFF80⟩ ∧
      sMem.mayUse .b false (placeOf p32 sMem.gpr (.reg .eax)) = true ∧ sMem.maySrc p32 .b (.imm 0xFFFFFF80) = true) :=
  ⟨⟨.adcEvGv, by decide +kernel, by decide +kernel, rfl⟩, .cmpAlIb, rfl, rfl⟩

theorem witness_UnaryResult : IsUnary (.negEb p32 (.mem mEbx)) ⟨.neg, p32, .b, .mem mEbx⟩ ∧ sMem.flat = true ∧
    sMem.mayUse .b true (placeOf p32 sMem.gpr (.mem mEbx)) = true := ⟨.negEb, by decide +kernel, by decide +kernel⟩

/-- A count of zero, and the largest. -/
theorem witness_ShiftResult :
    (IsShift (.rolEvIb p32 (.mem mEbx) 0x20) ⟨.rol, p32, .d, .mem mEbx, .imm 0x20⟩ ∧ sMem.flat = true ∧
      sMem.mayUse .d true (placeOf p32 sMem.gpr (.mem mEbx)) = true ∧ sMem.count (.imm 0x20) = 0) ∧
    IsShift (.sarEbIb p32 (.reg .eax) 0xFF) ⟨.sar, p32, .b, .reg .eax, .imm 0xFF⟩ ∧ sMem.count (.imm 0xFF) = 31 :=
  ⟨⟨.rolEvIb, by decide +kernel, by decide +kernel, by decide +kernel⟩, .sarEbIb, by decide +kernel⟩

/-- A count of zero, of the width, and of one more. -/
theorem witness_DoubleShiftResult :
    (IsDouble (.shldEvGvIb p16 (.reg .eax) .ecx 0) ⟨true, p16, .reg .eax, .ecx, .imm 0⟩ ∧ sMem.flat = true ∧
      sMem.mayUse .w true (placeOf p16 sMem.gpr (.reg .eax)) = true ∧ sMem.count (.imm 0) = 0) ∧
    (IsDouble (.shldEvGvIb p16 (.reg .eax) .ecx 16) ⟨true, p16, .reg .eax, .ecx, .imm 16⟩ ∧
      sMem.count (.imm 16) = p16.osz.size.bits) ∧
    IsDouble (.shrdEvGvIb p16 (.reg .eax) .ecx 17) ⟨false, p16, .reg .eax, .ecx, .imm 17⟩ ∧
      sMem.count (.imm 17) = p16.osz.size.bits + 1 :=
  ⟨⟨.shldEvGvIb, by decide +kernel, rfl, by decide +kernel⟩, ⟨.shldEvGvIb, by decide +kernel⟩, .shrdEvGvIb,
    by decide +kernel⟩

theorem witness_BitTestResult :
    (IsBit (.btEvIb p32 (.reg .eax) 0xFF) ⟨.test, p32, .reg .eax, .imm 0xFF⟩ ∧ sMem.flat = true ∧
      sMem.mayUse .d false (bitPlace sMem ⟨.test, p32, .reg .eax, .imm 0xFF⟩) = true) ∧
    IsBit (.btsEvGv p32 (.mem mEbx) .ecx) ⟨.set, p32, .mem mEbx, .reg .ecx⟩ ∧
      sMem.mayUse .d true (bitPlace sMem ⟨.set, p32, .mem mEbx, .reg .ecx⟩) = true :=
  ⟨⟨.btEvIb, by decide +kernel, rfl⟩, .btsEvGv, by decide +kernel⟩

/-- A zero source and one with a bit. -/
theorem witness_BitScanResult : sMem.flat = true ∧ sMem.mayUse .d false (placeOf p32 sMem.gpr (.reg .eax)) = true ∧
    sMem.get .d (placeOf p32 sMem.gpr (.reg .eax)) = 0 ∧ sMem.get .d (placeOf p32 sMem.gpr (.reg .ebx)) = 0x2000 := by
  decide +kernel

theorem witness_MultiplyResult : IsImul (.imulEv p32 (.mem mEbx)) ⟨p32, .d, .mem mEbx⟩ ∧ IsMul (.mulEb p32 (.mem mEbx)) ⟨p32, .b, .mem mEbx⟩ ∧
    sMem.flat = true ∧ sMem.mayUse .d false (placeOf p32 sMem.gpr (.mem mEbx)) = true ∧
    sMem.mayUse .b false (placeOf p32 sMem.gpr (.mem mEbx)) = true :=
  ⟨.imulEv, .mulEb, by decide +kernel, by decide +kernel, by decide +kernel⟩

theorem witness_MultiplyToResult : IsImulTo (.imulGvEvIbs p32 .ecx (.mem mEbx) 0x80) ⟨p32, .ecx, .mem mEbx, some 0xFFFFFF80⟩ ∧
    sMem.flat = true ∧ sMem.mayUse .d false (placeOf p32 sMem.gpr (.mem mEbx)) = true :=
  ⟨.imulGvEvIbs, by decide +kernel, by decide +kernel⟩

/-- AX = FEFFh divided by FFh: the largest quotient, FFh, with the remainder FEh; AX = FF00h: one more; a divisor of zero. -/
theorem witness_DivideResult :
    let s := withRegs ({ · with eax := 0xFEFF, ecx := 0xFF }) (prot 0)
    let u := withRegs ({ · with eax := 0xFF00, ecx := 0xFF }) (prot 0)
    (IsDiv (.divEb p32 (.reg .ecx)) ⟨p32, .b, .reg .ecx⟩ ∧ s.flat = true ∧
      s.mayUse .b false (placeOf p32 s.gpr (.reg .ecx)) = true ∧
      (pairValue s.gpr .b : Int) = 255 * (s.get .b (placeOf p32 s.gpr (.reg .ecx))).toNat + 254 ∧
      divisionOk false .b 255 255) ∧
    ((pairValue u.gpr .b : Int).tdiv (u.get .b (placeOf p32 u.gpr (.reg .ecx))).toNat = 256 ∧ ¬ divisionOk false .b 255 256) ∧
    ¬ divisionOk true .d 0 0 := by
  refine ⟨⟨.divEb, by decide +kernel, rfl, by decide +kernel, ?_⟩, ⟨by decide +kernel, ?_⟩, ?_⟩ <;> simp [divisionOk, Size.bits]

theorem witness_MoveResult : IsMove (.movMoffsEax p32 0x2000) ⟨p32, .d, .moffs 0x2000, .loc (.rm (.reg .eax))⟩ ∧ sMem.flat = true ∧
    sMem.mayUse .d true (locPlace p32 sMem.gpr (.moffs 0x2000)) = true ∧ sMem.mayMove p32 .d (.loc (.rm (.reg .eax))) = true :=
  ⟨.movMoffsEax, by decide +kernel, by decide +kernel, rfl⟩

theorem witness_ExtendResult : IsExtend (.movsxGvEb p32 .eax (.mem mEbx)) ⟨true, p32, .b, .eax, .mem mEbx⟩ ∧ sMem.flat = true ∧
    sMem.mayUse .b false (placeOf p32 sMem.gpr (.mem mEbx)) = true := ⟨.movsxGvEb, by decide +kernel, by decide +kernel⟩

theorem witness_ExchangeResult : IsXchg (.xchgEvGv p32 (.mem mEbx) .ecx) ⟨p32, .d, .mem mEbx, .ecx⟩ ∧ sMem.flat = true ∧
    sMem.mayUse .d true (placeOf p32 sMem.gpr (.mem mEbx)) = true := ⟨.xchgEvGv, by decide +kernel, by decide +kernel⟩

theorem witness_SetConditionResult : sMem.flat = true ∧ sMem.mayUse .b true (placeOf p32 sMem.gpr (.mem mEbx)) = true := by
  decide +kernel

/-! ### Segment registers and the stack -/

theorem witness_MoveFromSegment : sMem.flat = true ∧ sMem.mayUse .w true (placeOf p32 sMem.gpr (.mem mEbx)) = true := by
  decide +kernel

/-- Real mode; Virtual-8086 mode; a handler in SMM that has set PE. -/
theorem witness_LoadSegmentFlat : (real.flat = true ∧ real.pe = false ∧ Seg.ss ≠ .cs ∧
      real.mayUse .w false (placeOf p16 real.gpr (.reg .eax)) = true ∧ real.may .ss (real.stackOff 0) 2 2 false = true) ∧
    (v86.flat = true ∧ v86.flags.vm = true ∧ v86.mayUse .w false (placeOf p16 v86.gpr (.reg .eax)) = true) ∧
    let s := { prot 0 with smm := { (prot 0).smm with active := true } }
    s.flat = true ∧ s.smm.active = true ∧ s.mode = .prot := by
  decide +kernel

/-- The null selectors 0 and 3, in a register and in memory. -/
theorem witness_AccessFault : (sMem.flat = true ∧ (sMem.mode = .prot ∧ sMem.smm.active = false) ∧ Seg.ds ≠ .cs ∧ Seg.ss ≠ .cs) ∧
    (sMem.mayUse .w false (placeOf p32 sMem.gpr (.mem mEbx)) = true ∧
      nullSel (sMem.get .w (placeOf p32 sMem.gpr (.mem mEbx))) = true) ∧
    nullSel ((withRegs ({ · with eax := 3 }) (prot 0)).get .w (placeOf p32 (prot 0).gpr (.reg .eax))) = true ∧
    (prot 3).mode = .prot := by
  decide +kernel

/-- `sMem` with DS and SS that end at 2FFFh. -/
def sShort : State :=
  let r (d : SegReg) : SegReg := { d with limit := 0x2FFF, attr := { d.attr with g := false } }
  { sMem with seg := { sMem.seg with ds := r sMem.seg.ds, ss := r sMem.seg.ss } }
/-- Level 3 with alignment checks, EBX odd. -/
def sOdd : State :=
  withFlags ({ · with ac := true })
    { withRegs ({ · with ebx := 0x2001 }) (prot 3) with cr := { (prot 3).cr with cr0 := 0x60040011 } }

/-- The last bytes within a limit and the first beyond it, in DS and in SS; a write to code; a null selector in DS, and in SS for a push;
a misaligned access. -/
theorem witness_AccessFaultKinds :
    let null := { sMem with seg := { sMem.seg with ds := { sMem.seg.ds with sel := 3 }, ss := { sMem.seg.ss with sel := 0 } } }
    (sShort.allows ⟨false, .ds, 0x2FFC, 4, 4, true⟩ = true ∧ sShort.allows ⟨false, .ds, 0x2FFD, 4, 4, true⟩ = false ∧
      sShort.denies ⟨false, .ds, 0x2FFD, 4, 4, true⟩ = vGP ∧ sShort.allows ⟨false, .ss, 0x2FFD, 4, 4, false⟩ = false ∧
      sShort.denies ⟨false, .ss, 0x2FFD, 4, 4, false⟩ = vSS) ∧
    (sMem.allows ⟨false, .cs, 0, 1, 1, true⟩ = false ∧ sMem.denies ⟨false, .cs, 0, 1, 1, true⟩ = vGP) ∧
    (null.allows ⟨false, .ds, 0, 1, 1, false⟩ = false ∧ null.denies ⟨false, .ds, 0, 1, 1, false⟩ = vGP ∧
      null.allows ⟨true, .ss, 0xFFC, 4, 4, true⟩ = false ∧ null.denies ⟨true, .ss, 0xFFC, 4, 4, true⟩ = vSS) ∧
    sOdd.flat = true ∧ sOdd.allows ⟨false, .ds, 0x2001, 4, 4, false⟩ = false ∧
      sOdd.denies ⟨false, .ds, 0x2001, 4, 4, false⟩ = vAC := by decide +kernel

/-- An ADC and a CMPXCHG8B at a misaligned address; a push, and a pop to memory, beyond the limit of SS. -/
theorem witness_AccessFaultForms :
    let s := withRegs ({ · with esp := 0x3002 }) sShort
    (Uses sOdd (.adcEvGv p32 (.mem mEbx) .ecx) (some ⟨false, .ds, 0x2001, 4, 4, true⟩)) ∧
    (Uses s (.pushEv p32 (.mem mEbx)) (some ⟨true, .ss, 0x2FFE, 4, 4, true⟩) ∧ s.flat = true ∧
      s.allows ⟨true, .ss, 0x2FFE, 4, 4, true⟩ = false) ∧
    (Uses s (.popEv p32 (.mem mEbx)) (some ⟨true, .ss, 0x3002, 4, 4, false⟩) ∧
      s.allows ⟨true, .ss, 0x3002, 4, 4, false⟩ = false) ∧
    Uses sOdd (.cmpxchg8bMq p32 mEbx) (some ⟨false, .ds, 0x2001, 8, 8, true⟩) :=
  ⟨.aluTo .adcEvGv, ⟨.push .pushEv (by decide +kernel), by decide +kernel, by decide +kernel⟩,
    ⟨.pop .popEv, by decide +kernel⟩, .cmpxchg8b⟩

/-- A shift by zero, and a double shift by zero, of a misaligned doubleword. -/
theorem witness_AccessFaultZeroCount :
    let x (w : Bool) : Use := ⟨false, .ds, 0x2001, 4, 4, w⟩
    (IsShift (.rolEvIb p32 (.mem mEbx) 0x20) ⟨.rol, p32, .d, .mem mEbx, .imm 0x20⟩ ∧ sOdd.count (.imm 0x20) = 0 ∧
      (placeOf p32 sOdd.gpr (.mem mEbx)).sized .d false = some (x false) ∧
      (placeOf p32 sOdd.gpr (.mem mEbx)).sized .d true = some (x true) ∧ sOdd.allows (x false) = false) ∧
    IsDouble (.shldEvGvIb p32 (.mem mEbx) .ecx 0) ⟨true, p32, .mem mEbx, .ecx, .imm 0⟩ ∧ sOdd.count (.imm 0) = 0 :=
  ⟨⟨.rolEvIb, by decide +kernel, by decide +kernel, by decide +kernel, by decide +kernel⟩, .shldEvGvIb, by decide +kernel⟩

/-- Protected mode with a GDT: a data segment at 10h and a code segment at 8. -/
def withGdt (s : State) : State :=
  withBytes 0x3008 [0xFF, 0xFF, 0, 0, 0, 0x9A, 0xCF, 0] (withBytes 0x3010 [0xFF, 0xFF, 0, 0, 0, 0x92, 0xCF, 0]
    { s with sys := { SysRegs.reset with gdtr := { base := 0x3000, limit := 0x3F }, idtr := { base := 0x4000, limit := 0x7FF } } })

/-- The selector in a register, and on the stack for POP SS. -/
theorem witness_MoveToSegmentProtected :
    let s := withBytes 0x1000 [0x10, 0, 0, 0] (withRegs ({ · with eax := 0x10 }) (withGdt (prot 0)))
    let sel := s.get .w (placeOf p32 s.gpr (.reg .eax))
    s.flat = true ∧ (s.mode = .prot ∧ s.smm.active = false) ∧ s.mayUse .w false (placeOf p32 s.gpr (.reg .eax)) = true ∧
    nullSel sel = false ∧ s.descAddr sel = some 0x3010 ∧
    segUsable s .ds sel (descAt s 0x3010) = true ∧ segUsable s .ss sel (descAt s 0x3010) = true ∧
    s.may .ss (s.stackOff 0) 4 4 false = true ∧ (s.value .ss (s.stackOff 0) 2 16 : Half) = 0x10 := by
  decide +kernel

/-- A GDT with, behind these, a busy TSS at 5000h, a free one at 6000h, a task gate to it, a call gate, and a busy TSS at 6000h; the
first is the current task, linked to the last. The TSS at 6000h holds the flat segments of the GDT, EIP 2000h and ESP 1800h, the one at
5000h the stack of level 0. -/
def withTasks (s : State) : State :=
  let d : Desc := { la := 0x3018, q := 0x00008B0050000067 }
  { withBytes 0x3018 ([0x67, 0, 0, 0x50, 0, 0x8B, 0, 0] ++ [0x67, 0, 0, 0x60, 0, 0x89, 0, 0] ++ [0, 0, 0x20, 0, 0, 0xE5, 0, 0]
      ++ [0, 0, 8, 0, 0, 0xEC, 0, 0] ++ [0x67, 0, 0, 0x60, 0, 0x8B, 0, 0])
    (withBytes 0x5000 [0x38, 0, 0, 0, 0, 0x1C, 0, 0, 0x10]
      (withBytes 0x6020 [0, 0x20, 0, 0, 2] (withBytes 0x6038 [0, 0x18]
        (withBytes 0x6048 [0x10, 0, 0, 0, 8, 0, 0, 0, 0x10, 0, 0, 0, 0x10] (withGdt s)))))
    with sys := { (withGdt s).sys with tr := sysLoad 0x18 d 11 } }

/-- A selector beyond the table, of a system segment, of a code segment for SS; a descriptor of 20h that is not present. -/
theorem witness_MoveToSegmentFault :
    let s := withBytes 0x1000 [0x40, 0, 0, 0] (withTasks (prot 0))
    let u := withBytes 0x3020 [0xFF, 0xFF, 0, 0, 0, 0x12, 0xCF, 0] s
    s.flat = true ∧ descLoads s ∧ segFault s .ds 0x40 = some vGP ∧ segFault s .es 0x18 = some vGP ∧ segFault s .ss 0x08 = some vGP ∧
    segFault s .fs 0x38 = some vGP ∧ segFault u .ds 0x20 = some vNP ∧ segFault u .ss 0x20 = some vSS ∧
    (withRegs ({ · with eax := 0x40 }) s).get .w (placeOf p32 s.gpr (.reg .eax)) = 0x40 ∧
    s.may .ss (s.stackOff 0) 4 4 false = true ∧ (s.value .ss (s.stackOff 0) 2 16 : Half) = 0x40 ∧
    nullSel ((withGdt (prot 0)).value .ss (s.stackOff 0) 2 16) = true :=
  ⟨by decide +kernel, ⟨by decide +kernel, rfl⟩, by decide +kernel⟩

theorem witness_PushResult : IsPush (.pushEv p32 (.mem mEbx)) ⟨p32, .rm (.mem mEbx)⟩ ∧ sMem.flat = true ∧
    sMem.maySrc p32 .d (.rm (.mem mEbx)) = true ∧ sMem.may .ss (sMem.pushOff sMem.gpr.esp 4) 4 4 true = true :=
  ⟨.pushEv, by decide +kernel, by decide +kernel, by decide +kernel⟩

/-- POP of a doubleword that ESP addresses, after it has moved. -/
theorem witness_PopResult :
    let m : MemOp := .m32 (some .esp) none 0
    let u := sMem.setGpr (sMem.gpr.put .esp (sMem.popped 4))
    IsPop (.popEv p32 (.mem m)) (p32, .mem m) ∧ sMem.flat = true ∧ sMem.may .ss (sMem.stackOff 0) 4 4 false = true ∧
    u.mayUse .d true (placeOf p32 u.gpr (.mem m)) = true :=
  ⟨.popEv, by decide +kernel, by decide +kernel, by decide +kernel⟩

/-- Allowed, and in Virtual-8086 mode below IOPL 3 not. -/
theorem witness_PushFlagsResult : (prot 0).flat = true ∧ (prot 0).may .ss ((prot 0).pushOff (prot 0).gpr.esp 4) 4 4 true = true ∧
    flagsAllowed (prot 0) .o32 = true ∧ v86.flat = true ∧ v86.may .ss (v86.pushOff v86.gpr.esp 2) 2 2 true = true ∧
    flagsAllowed v86 .o16 = false := by decide +kernel

/-- A Virtual-8086 program under VME, with an image on the stack. -/
def vmeWith (img : List Byte) : State :=
  withBytes 0x1000 [0x34, 0x12, 0x00, 0x20] (withBytes 0x1004 img { v86 with cr := { v86.cr with cr4 := 1 } })

/-- Protected mode; Virtual-8086 mode at IOPL 3, below it without VME, and with it, where the image has IF, or TF. -/
theorem witness_PopFlagsResult : ((prot 3).flat = true ∧ (prot 3).mode ≠ .v86 ∧
      (prot 3).may .ss ((prot 3).stackOff 0) 4 4 false = true) ∧
    ((withFlags ({ · with iopl := 3 }) v86).flags.iopl = 3 ∧ v86.may .ss (v86.stackOff 0) 2 2 false = true) ∧
    flagsAllowed v86 .o16 = false ∧
    let s := withBytes 0x1000 [0x02, 0x02] (vmeWith [])
    let b := withBytes 0x1000 [0x02, 0x01] (vmeWith [])
    (s.flat = true ∧ s.mode = .v86 ∧ s.flags.iopl ≠ 3 ∧ s.vme = true ∧ s.may .ss (s.stackOff 0) 2 2 false = true) ∧
    vmeBlocked s (Flags.ofWord (s.value .ss (s.stackOff 0) 2 32)) = false ∧
    vmeBlocked b (Flags.ofWord (b.value .ss (b.stackOff 0) 2 32)) = true := by decide +kernel

/-! ### Control transfer -/

theorem witness_JumpResult : IsJump (.jmpEv p32 (.mem mEbx)) (p32, .ind (.mem mEbx)) ∧ sMem.flat = true ∧
    sMem.mayTarget p32 (.ind (.mem mEbx)) = true ∧ inCode sMem (sMem.target p32 (.ind (.mem mEbx))) = true :=
  ⟨.jmpEv, by decide +kernel, by decide +kernel, by decide +kernel⟩

/-- Taken and not taken. -/
theorem witness_BranchResult : IsBranch (.loopRel8 p32 0xFE) ⟨p32, .loop, .rel8 0xFE⟩ ∧
    taken (prot 0) ⟨p32, .loop, .rel8 0xFE⟩ = true ∧ inCode (prot 0) ((prot 0).target p32 (.rel8 0xFE)) = true ∧
    taken (withRegs ({ · with ecx := 1 }) (prot 0)) ⟨p32, .loop, .rel8 0xFE⟩ = false :=
  ⟨.loopRel8, by decide +kernel, by decide +kernel, by decide +kernel⟩

theorem witness_CallResult : IsCall (.callRelv p32 0x20) (p32, .relv 0x20) ∧ (prot 0).flat = true ∧
    (prot 0).mayTarget p32 (.relv 0x20) = true ∧ inCode (prot 0) ((prot 0).target p32 (.relv 0x20)) = true ∧
    (prot 0).may .ss ((prot 0).pushOff (prot 0).gpr.esp 4) 4 4 true = true :=
  ⟨.callRelv, by decide +kernel, rfl, by decide +kernel, by decide +kernel⟩

theorem witness_ReturnResult : IsRet (.retIw p32 8) (p32, 8) ∧ (prot 0).flat = true ∧
    (prot 0).may .ss ((prot 0).stackOff 0) 4 4 false = true ∧ inCode (prot 0) ((prot 0).value .ss ((prot 0).stackOff 0) 4 32) = true :=
  ⟨.retIw, by decide +kernel, by decide +kernel, by decide +kernel⟩

/-- The first offset beyond a 64-Kbyte code segment. -/
theorem witness_TransferFault :
    let p : Pfx := ⟨false, none, .o32, .o16⟩
    let s := withRegs ({ · with eax := 0x10000 }) real
    IsJump (.jmpEv p (.reg .eax)) (p, .ind (.reg .eax)) ∧ s.flat = true ∧ s.mayTarget p (.ind (.reg .eax)) = true ∧
    inCode s (s.target p (.ind (.reg .eax))) = false ∧
    (IsBranch (.jcxzRel8 p 0xFE) ⟨p, .cxz, .rel8 0xFE⟩ ∧ taken s ⟨p, .cxz, .rel8 0xFE⟩ = true) :=
  ⟨.jmpEv, by decide +kernel, rfl, by decide +kernel, .jcxzRel8, by decide +kernel⟩

/-- RET, with and without an operand, to an offset that the limit of CS just excludes. -/
theorem witness_ReturnFault :
    let s := withBytes 0x1000 [0x00, 0x00, 0x01, 0x00] real
    let p : Pfx := ⟨false, none, .o32, .o16⟩
    IsRet (.ret p) (p, 0) ∧ IsRet (.retIw p 8) (p, 8) ∧ s.flat = true ∧ s.may .ss (s.stackOff 0) 4 4 false = true ∧
    s.value .ss (s.stackOff 0) 4 32 = (0x10000 : Word) ∧ inCode s 0xFFFF = true ∧ inCode s 0x10000 = false :=
  ⟨.ret, .retIw, by decide +kernel⟩

/-- An offset beyond the limit of CS outside Protected mode; in Protected mode a null selector, one beyond the table, a code segment that
is too short, not present or of another level, a data segment, a TSS that is busy, and one that is too short. -/
theorem witness_FarFault :
    let r := { real with seg := { real.seg with cs := { real.seg.cs with limit := 0x1233 } } }
    let s := withTasks (prot 0)
    let u (b : List Byte) := withBytes 0x3008 b s
    (FarTarget r (.jmpPtr p16 0x1234 0x2000) 0x2000 0x1234 ∧ r.flat = true ∧ flatLoads r ∧ inCode r 0x1234 = false) ∧
    (FarTarget s (.jmpPtr p32 0x1234 0x0040) 0x0040 0x1234 ∧ s.flat = true ∧ descLoads s) ∧
    farFault s 3 0 = some (vGP, 0) ∧ farFault s 0x43 0 = some (vGP, 0x40) ∧ farFault s 0x10 0 = some (vGP, 0x10) ∧
    farFault s 0x18 0 = some (vGP, 0x18) ∧ farFault s 0x30 0 = none ∧ farFault s 0x20 0 = none ∧ farFault s 0x28 0 = none ∧
    farFault (u [0xFF, 0xFF, 0, 0, 0, 0x9A, 0x40, 0]) 8 0x10000 = some (vGP, 0) ∧
    farFault (u [0xFF, 0xFF, 0, 0, 0, 0x1A, 0xCF, 0]) 8 0 = some (vNP, 8) ∧
    farFault (u [0xFF, 0xFF, 0, 0, 0, 0xFA, 0xCF, 0]) 8 0 = some (vGP, 8) ∧
    farFault (u [0x66, 0, 0, 0x60, 0, 0x89, 0, 0]) 8 0 = some (vTS, 8) ∧
    farFault (u [0x67, 0, 0, 0x60, 0, 0x09, 0, 0]) 8 0 = some (vNP, 8) :=
  ⟨⟨.ptr (p := p16) (off := 0x1234), by decide +kernel, .inl (by decide +kernel), by decide +kernel⟩,
    ⟨.ptr (p := p32) (off := 0x1234), by decide +kernel, ⟨by decide +kernel, rfl⟩⟩, by decide +kernel⟩

/-- The TSS of the current task, of which IRET follows the link; the free TSS and the task gate; the call gate. -/
theorem witness_TaskSwitch :
    let s := withTasks (prot 0)
    let t := withFlags ({ · with nt := true }) s
    descLoads s ∧ (s.descAddr 0x20 = some 0x3020 ∧ jumpsTo s 0x20 (descAt s 0x3020) 0x20 ∧ mayEnter .jmp s 0x20 s.nextEip s.flags) ∧
    (s.descAddr 0x28 = some 0x3028 ∧ jumpsTo s 0x28 (descAt s 0x3028) 0x20) ∧
    ((descAt s 0x3030).attr.s = false ∧ (descAt s 0x3030).attr.typ = 12) ∧
    descLoads t ∧ t.flags.nt = true ∧ t.tssHalf 0 = 0x38 ∧ mayEnter .iret t (t.tssHalf 0) t.nextEip t.flags := by
  refine ⟨⟨by decide +kernel, rfl⟩, ⟨by decide +kernel, ⟨by decide +kernel, .inl (by decide +kernel)⟩, ?_⟩,
    ⟨by decide +kernel, by decide +kernel, .inr (by decide +kernel)⟩, by decide +kernel, ⟨by decide +kernel, rfl⟩, rfl, by decide +kernel, ?_⟩
  all_goals unfold mayEnter; decide +kernel

theorem witness_FarJumpResult :
    (FarTarget real (.jmpPtr p16 0x1234 0x2000) 0x2000 0x1234 ∧ real.flat = true ∧ flatLoads real ∧ inCode real 0x1234 = true) ∧
    let s := withGdt (prot 0)
    FarTarget s (.jmpPtr p32 0x1234 0x0008) 0x0008 0x1234 ∧ s.flat = true ∧ descLoads s ∧ nullSel 0x0008 = false ∧
      s.descAddr 0x0008 = some 0x3008 ∧ codeUsable s 0x0008 (descAt s 0x3008) 0x1234 = true :=
  ⟨⟨.ptr (p := p16) (off := 0x1234), by decide +kernel, .inl (by decide +kernel), by decide +kernel⟩,
    .ptr (p := p32) (off := 0x1234), by decide +kernel, ⟨by decide +kernel, by decide +kernel⟩, by decide +kernel, by decide +kernel, by decide +kernel⟩

/-! ### Interrupts and exceptions -/

/-- Real mode, level 3 with IOPL 3 and IOPL 0, without and with PVI. -/
theorem witness_InterruptFlagResult :
    (real.pe = false ∧ (prot 3).pe = true ∧ (prot 3).smm.active = false) ∧
    ((withFlags ({ · with iopl := 3 }) (prot 3)).level ≤ (withFlags ({ · with iopl := 3 }) (prot 3)).flags.iopl.toNat) ∧
    ((prot 3).flags.iopl.toNat < (prot 3).level ∧ ¬ virtualIf (prot 3)) ∧
    let s := { prot 3 with cr := { (prot 3).cr with cr4 := 2 } }
    s.flags.iopl.toNat < s.level ∧ virtualIf s := by
  refine ⟨by decide +kernel, by decide +kernel, ⟨by decide +kernel, ?_⟩, by decide +kernel, .inr (by decide +kernel)⟩
  rintro (⟨h, -⟩ | ⟨-, h, -⟩)
  · exact absurd h (by decide +kernel)
  · exact absurd h (by decide +kernel)

/-- INT 255 with the smallest table that holds its vector. -/
theorem witness_EntryThroughVectorTable :
    let s := { real with sys := { real.sys with idtr := { base := 0, limit := 1023 } } }
    Enters s (exec (.intIb p16 0xFF) s) ⟨.int, 0xFF, none, s.nextEip, { s.flags with rf := false }⟩ ∧ s.flat = true ∧
    (s.pe = false ∨ s.smm.active = true) ∧ 4 * (0xFF : Byte).toNat + 3 ≤ s.sys.idtr.limit.toNat ∧
    (∀ k, 1 ≤ k → k ≤ 3 → s.may .ss (s.pushOff s.gpr.esp (2 * k)) 2 2 true = true) := by
  refine ⟨.int p16 0xFF, by decide +kernel, .inl (by decide +kernel), by decide +kernel, ?_⟩
  intro k h1 h3
  obtain rfl | rfl | rfl : k = 1 ∨ k = 2 ∨ k = 3 := by omega
  all_goals decide +kernel

/-- A Virtual-8086 program under VME whose TSS, up to a limit, has its I/O map at 88h, and the redirection bit of vector FFh in the
byte before it. -/
def vmeTask (limit : BitVec 20) (map : Byte) : State :=
  let s := withBytes 0x5066 [0x88, 0] (withBytes 0x5087 [map] (vmeWith []))
  { s with sys := { s.sys with tr := { sel := 0x18, base := 0x5000, limit := limit, attr := { SegAttr.data16 with s := false, typ := 11 } } } }

/-- INT 255 redirected, not redirected at IOPL 3 and below, and with a TSS that ends before its bit; INT3 in SMM; an NMI in Real mode. -/
theorem witness_VirtualInterrupt :
    let s := vmeTask 0x87 0
    let n := vmeTask 0x87 0x80
    (s.flat = true ∧ isV86 s ∧ s.vme = true ∧ s.mayRedirect 0xFF = true ∧ s.redirectBit 0xFF = false ∧
      (s.may .ss (s.pushOff s.gpr.esp 2) 2 2 true && s.may .ss (s.pushOff s.gpr.esp 4) 2 2 true &&
        s.may .ss (s.pushOff s.gpr.esp 6) 2 2 true) = true) ∧
    (isV86 n ∧ n.flags.iopl ≠ 3 ∧ n.mayRedirect 0xFF = true ∧ n.redirectBit 0xFF = true ∧
      notRedirected (withFlags ({ · with iopl := 3 }) n) 0xFF) ∧
    (isV86 (vmeTask 0x86 0) ∧ (vmeTask 0x86 0).vme = true ∧ (vmeTask 0x86 0).mayRedirect 0xFF = false) ∧
    (isV86 v86 ∧ v86.vme = false) ∧
    (let t := { prot 0 with smm := { (prot 0).smm with active := true } };
      t.smm.active = true ∧ t.flat = true ∧ Enters t (exec (.int3 p32) t) ⟨.int3, 3, none, t.nextEip, { t.flags with rf := false }⟩) ∧
    Enters real (takeEvent 8 (boundaryEvent real 2 .external) real) ⟨.event .external, 2, none, real.eip, { real.flags with rf := false }⟩ := by
  refine ⟨⟨by decide +kernel, ⟨by decide +kernel, rfl⟩, by decide +kernel⟩,
    ⟨⟨by decide +kernel, rfl⟩, by decide +kernel, by decide +kernel, by decide +kernel, by decide +kernel, .inr (by decide +kernel)⟩,
    ⟨⟨by decide +kernel, rfl⟩, by decide +kernel⟩, ⟨⟨by decide +kernel, rfl⟩, by decide +kernel⟩,
    ⟨rfl, by decide +kernel, .int3 p32⟩,
    .event 2 .external (by decide)⟩

/-- Protected mode with an interrupt gate for vector 13 to the code segment at 8. -/
def withGate (s : State) : State := withBytes 0x4068 [0x00, 0x20, 0x08, 0x00, 0x00, 0x8E, 0x00, 0x00] (withGdt s)

theorem witness_EntryThroughGate :
    let s := withGate (prot 0)
    let e : EntryForm := ⟨.fault, 13, some 0, s.eip, { s.flags with rf := true }⟩
    Enters s (takeException (Exc.fault vGP (some 0)) s s) e ∧ s.flat = true ∧ descLoads s ∧
    8 * e.vec.toNat + 7 ≤ s.sys.idtr.limit.toNat ∧ gateUsable s e (gateOf s e.vec) = true ∧
    s.descAddr (gateOf s e.vec).gateSel = some 0x3008 ∧
    handlerUsable s (descAt s 0x3008) (gateOf s e.vec).gateOff = true ∧
    ∀ k, 1 ≤ k → k ≤ (frameItems s e 4).length → s.may .ss (s.pushOff s.gpr.esp (4 * k)) 4 4 true = true := by
  refine ⟨.fault 13 (some 0) (withGate (prot 0)) rfl (by decide +kernel), by decide +kernel, ⟨by decide +kernel, rfl⟩, by decide +kernel,
    by decide +kernel, by decide +kernel, by decide +kernel, ?_⟩
  intro k h1 h4
  change k ≤ 4 at h4
  obtain rfl | rfl | rfl | rfl : k = 1 ∨ k = 2 ∨ k = 3 ∨ k = 4 := by omega
  all_goals decide +kernel

/-- The same gate from level 3 and from Virtual-8086 mode, with the tasks of `withTasks`. -/
theorem witness_EntryInner :
    let s := withGate (withTasks (prot 3))
    let v := { s with flags := v86.flags, seg := v86.seg }
    let ready (s : State) : Prop :=
      let e : EntryForm := ⟨.fault, 13, some 0, s.eip, { s.flags with rf := true }⟩
      let u := onInner s 0 (descAt s 0x3010)
      Enters s (takeException (Exc.fault vGP (some 0)) s s) e ∧ s.flat = true ∧
      gateUsable s e (gateOf s e.vec) = true ∧ s.descAddr (gateOf s e.vec).gateSel = some 0x3008 ∧
      innerUsable s (descAt s 0x3008) (gateOf s e.vec).gateOff = true ∧ (descAt s 0x3008).dpl = 0 ∧ tssHolds s 0 = true ∧
      s.descAddr (tssSs s 0) = some 0x3010 ∧ stackUsable (tssSs s 0) (descAt s 0x3010) 0 = true ∧
      ∀ k, k < (outerItems s 4 ++ frameItems s e 4).length → u.seg.ss.inLimit (u.pushOff u.gpr.esp (4 * (k + 1))) 4 = true
    let s := { s with sys := { s.sys with tr := (withTasks (prot 0)).sys.tr } }
    let v := { v with sys := { v.sys with tr := (withTasks (prot 0)).sys.tr } }
    (ready s ∧ descLoads s) ∧ ready v ∧ isV86 v := by
  refine ⟨⟨⟨.fault 13 (some 0) _ rfl (by decide +kernel), by decide +kernel⟩, by decide +kernel, rfl⟩,
    ⟨.fault 13 (some 0) _ rfl (by decide +kernel), by decide +kernel⟩, by decide +kernel, rfl⟩

/-- The general registers of a new task do not matter to its segment registers. -/
theorem taskLoad_gpr (u : State) (g : Gpr) (x : Seg × Half) :
    taskLoad { u with gpr := g } x = (taskLoad u x).map fun w => { w with gpr := g } := by
  unfold taskLoad
  split
  · rename_i h
    split <;> rfl
  · show (match u.descAddr x.2 with | none => none | some la => _) = _
    cases u.descAddr x.2 with
    | none => rfl
    | some la =>
      show _ = Option.map _ (if (if x.1 = .cs then taskCode x.2 (descAt u la) else segUsable u x.1 x.2 (descAt u la)) = true then _ else _)
      by_cases h : (if x.1 = .cs then taskCode x.2 (descAt u la) else segUsable u x.1 x.2 (descAt u la)) = true
      · rw [if_pos h]; exact if_pos h
      · rw [if_neg h]; exact if_neg h

theorem taskLoads_gpr (l : List (Seg × Half)) (u : State) (g : Gpr) :
    l.foldlM taskLoad { u with gpr := g } = (l.foldlM taskLoad u).map fun w => { w with gpr := g } := by
  induction l generalizing u with
  | nil => rfl
  | cons x l ih =>
    simp only [List.foldlM_cons, taskLoad_gpr]
    cases h : taskLoad u x with
    | none => rfl
    | some w => exact ih w

theorem newTask_gpr (src : TaskSource) (s : State) (tsel : Half) (ret : Word) (img : Flags) (g g' : Gpr) :
    newTask src s tsel ret img g = (newTask src s tsel ret img g').map fun w => { w with gpr := g } := by
  unfold newTask
  cases s.descAddr tsel with
  | none => rfl
  | some la =>
    by_cases h : taskUsable src s tsel (descAt s la) = true
    · simp only [h, if_true]
      generalize taskMemory src s (descAt s la) ret img = u
      generalize hl : taskLdtr _ _ = l
      generalize hr : taskLdtr _ _ = r
      have : l = r := by rw [← hl, ← hr]; rfl
      subst this
      cases l with
      | none => rfl
      | some l =>
        by_cases hv : (Flags.ofWord (if bigTss (descAt s la).attr.typ = true then State.tssField u (descAt s la).base 36 4 32 else State.tssField u (descAt s la).base 16 2 32)).vm = true
        · simp only [hv, if_true]; rfl
        · simp only [hv, Bool.false_eq_true, if_false]
          have h := fun l u => (taskLoads_gpr l u g).symm
          symm
          exact h _ _
    · simp only [h]; rfl

/-- The stack pointer of a new task of a 32-bit TSS. -/
theorem entersTask_esp {src : TaskSource} {s w : State} {tsel : Half} {ret la : Word} {img : Flags}
    (h : entersTask src s tsel ret img w) (hla : s.descAddr tsel = some la) (hb : bigTss (descAt s la).attr.typ = true) :
    ∃ g, newTask src s tsel ret img g = some w ∧
      g.esp = (taskMemory src s (descAt s la) ret img).tssField (descAt s la).base 0x38 4 32 := by
  obtain ⟨g, la', h, hla', hg⟩ := h
  cases Option.some.inj (hla.symm.trans hla')
  have h4 := hg (.esp, 4) (by decide)
  rw [if_pos hb] at h4
  exact ⟨g, h, h4⟩

/-- Level 3 with the tasks of `withTasks`, and vectors 2 and 14 through a task gate to the TSS at 6000h. -/
def taskGated : State :=
  withBytes 0x4010 [0, 0, 0x20, 0, 0, 0x85, 0, 0] (withBytes 0x4070 [0, 0, 0x20, 0, 0, 0x85, 0, 0] (withTasks (prot 3)))

/-- Vector 14 with an error code; and vector 2 without one. -/
theorem witness_EntryThroughTaskGate :
    let s := taskGated
    let e : EntryForm := ⟨.fault, 14, some 2, s.eip, { s.flags with rf := true }⟩
    Enters s (takeException (Exc.fault vPF (some 2)) s s) e ∧
    Enters s (takeEvent 8 (boundaryEvent s 2 .external) s) ⟨.event .external, 2, none, s.eip, { s.flags with rf := false }⟩ ∧
    s.flat = true ∧ descLoads s ∧ taskGate s e (gateOf s 14) = true ∧ (gateOf s 2).gateSel = 0x20 ∧ (gateOf s 14).gateSel = 0x20 ∧
    mayEnter .interrupt s 0x20 e.ret e.img ∧
    ∀ w, entersTask .interrupt s 0x20 e.ret e.img w → w.eip.toNat ≤ w.seg.cs.byteLimit ∧
      (e.err.isSome = true → w.may .ss (w.pushOff w.gpr.esp 4) 4 4 true = true) := by
  refine ⟨.fault 14 (some 2) _ rfl (by decide +kernel), .event 2 .external (by decide), by decide +kernel,
    ⟨by decide +kernel, rfl⟩, by decide +kernel, by decide +kernel, by decide +kernel, by unfold mayEnter; decide +kernel, ?_⟩
  intro w hw
  have hd : taskGated.descAddr 0x20 = some 0x3020 := by decide +kernel
  have hb : bigTss (descAt taskGated 0x3020).attr.typ = true := by decide +kernel
  obtain ⟨g, h, hg⟩ := entersTask_esp hw hd hb
  have hv : (taskMemory .interrupt taskGated (descAt taskGated 0x3020) taskGated.eip { taskGated.flags with rf := true }).tssField
      (descAt taskGated 0x3020).base 0x38 4 32 = (0x1800 : Word) := by decide +kernel
  have hesp : g.esp = 0x1800 := hg.trans hv
  rw [newTask_gpr _ _ _ _ _ g { Gpr.reset (prot 0).plat with esp := 0x1800 }] at h
  obtain ⟨v, hv, rfl⟩ := Option.map_eq_some_iff.mp h
  have hm : (newTask .interrupt taskGated 0x20 taskGated.eip { taskGated.flags with rf := true }
      { Gpr.reset (prot 0).plat with esp := 0x1800 }).all (fun v => decide (v.eip.toNat ≤ v.seg.cs.byteLimit) &&
        v.gpr.esp == 0x1800 && v.may .ss (v.pushOff v.gpr.esp 4) 4 4 true) = true := by decide +kernel
  rw [hv] at hm
  simp only [Option.all_some, Bool.and_eq_true, decide_eq_true_eq, beq_iff_eq] at hm
  refine ⟨hm.1.1, fun _ => ?_⟩
  have h2 := hm.2
  rw [hm.1.2] at h2
  show v.may .ss (v.pushOff g.esp 4) 4 4 true = true
  rw [hesp]
  exact h2
/-- The delivery of an event in Protected mode with an empty IDT raises GP: a page fault, a divide error, a double fault, a debug
exception, and an interrupt with vector 8. -/
theorem witness_SecondException :
    let s := { prot 0 with sys := { SysRegs.reset with idtr := { base := 0, limit := 0 } } }
    let e (v : Byte) : Event := { vec := v, kind := .exception, err := none, ret := 0, img := s.flags }
    (∃ x u, deliver (e 14) s = .error (.exc x) u ∧ (e 14).vec ≠ 8 ∧ x.vec ≠ 8 ∧ (e 14).vec = 14 ∧ contributory x.vec) ∧
    (∃ x u, deliver (e 0) s = .error (.exc x) u ∧ contributory (e 0).vec ∧ contributory x.vec) ∧
    (∃ x u, deliver (e 8) s = .error (.exc x) u ∧ (e 8).vec = 8 ∧ contributory x.vec) ∧
    (∃ x u, deliver (e 1) s = .error (.exc x) u ∧ x.vec ≠ 8 ∧ ¬ (contributory (e 1).vec ∧ contributory x.vec) ∧
      ¬ (((e 1).vec = 14 ∨ (e 1).vec = 8) ∧ (contributory x.vec ∨ x.vec = 14))) ∧
    ∃ x u, deliver { e 8 with kind := .external } s = .error (.exc x) u := by
  have gp : contributory 13 := by unfold contributory; decide
  refine ⟨⟨_, _, rfl, by decide, by decide, rfl, gp⟩, ⟨_, _, rfl, .inl rfl, gp⟩, ⟨_, _, rfl, rfl, gp⟩,
    ⟨_, _, rfl, by decide, ?_, fun h => absurd h.1 (by decide)⟩, ⟨_, _, rfl⟩⟩
  exact fun h => absurd h.1 (by unfold contributory; decide)

/-- Real mode; a handler in SMM that has set PE; a Virtual-8086 program below IOPL 3 without VME, and with it, where the image has IF,
or TF. -/
theorem witness_InterruptReturnFlat : (real.flat = true ∧ flatLoads real ∧ returnAllowed real .o16 = true ∧ real.mayReturn .o16) ∧
    (let s := { prot 0 with smm := { (prot 0).smm with active := true } };
      flatLoads s ∧ returnAllowed s .o32 = true ∧ v86Return s = false) ∧
    (v86.flat = true ∧ flatLoads v86 ∧ returnAllowed v86 .o16 = false) ∧
    ((vmeWith [2, 2]).flat = true ∧ flatLoads (vmeWith [2, 2]) ∧ v86Return (vmeWith [2, 2]) = true ∧ returnAllowed (vmeWith [2, 2]) .o16 = true ∧
      (vmeWith [2, 2]).mayReturn .o16 ∧
      vmeBlocked (vmeWith [2, 2]) (Flags.ofWord ((vmeWith [2, 2]).retItem .o16 2)) = false ∧
      vmeBlocked (vmeWith [2, 1]) (Flags.ofWord ((vmeWith [2, 1]).retItem .o16 2)) = true) := by
  refine ⟨⟨by decide +kernel, .inl (by decide +kernel), by decide +kernel, fun k hk => ?_⟩, ⟨.inr (.inl rfl), by decide +kernel⟩,
    ⟨by decide +kernel, .inr (.inr rfl), by decide +kernel⟩,
    by decide +kernel, .inr (.inr rfl), by decide +kernel, by decide +kernel, fun k hk => ?_, by decide +kernel, by decide +kernel⟩
  all_goals
    obtain rfl | rfl | rfl : k = 0 ∨ k = 1 ∨ k = 2 := by omega
    all_goals decide +kernel

/-- A frame on the stack: the offset 2000h, a selector, the third byte of the flags, ESP, SS, and four more selectors. -/
def iretFrame (cs vm : Byte) : State :=
  withBytes 0x1000 ([0x00, 0x20, 0, 0, cs, 0, 0, 0, 0x02, 0x02, vm, 0, 0x78, 0x56, 0, 0, 0x2B, 0, 0, 0]
    ++ [1, 0, 0, 0, 2, 0, 0, 0, 3, 0, 0, 0, 4, 0, 0, 0])
    (withBytes 0x3020 [0xFF, 0xFF, 0, 0, 0, 0xFA, 0xCF, 0, 0xFF, 0xFF, 0, 0, 0, 0xF2, 0xCF, 0] (withGdt (prot 0)))

/-- The same level, an outer level, and Virtual-8086 mode. -/
theorem witness_InterruptReturnProtected :
    let s := iretFrame 0x08 0
    let o := iretFrame 0x23 0
    let v := iretFrame 0x08 2
    let may (k : Nat) : Prop := s.may .ss (s.stackOff (k * 4)) 4 4 false = true
    (s.flat = true ∧ descLoads s ∧ s.flags.nt = false ∧ (may 0 ∧ may 1 ∧ may 2) ∧ (may 3 ∧ may 4) ∧
      may 5 ∧ may 6 ∧ may 7 ∧ may 8) ∧
    ((Flags.ofWord (s.retItem .o32 2)).vm = false ∧ s.descAddr ((s.retItem .o32 1).setWidth 16) = some 0x3008 ∧
      rpl ((s.retItem .o32 1).setWidth 16) = s.level ∧
      returnUsable s ((s.retItem .o32 1).setWidth 16) (descAt s 0x3008) (s.retItem .o32 0) = true) ∧
    ((Flags.ofWord (o.retItem .o32 2)).vm = false ∧ o.descAddr ((o.retItem .o32 1).setWidth 16) = some 0x3020 ∧
      rpl ((o.retItem .o32 1).setWidth 16) ≠ o.level ∧
      returnUsable o ((o.retItem .o32 1).setWidth 16) (descAt o 0x3020) (o.retItem .o32 0) = true ∧
      o.descAddr ((o.retItem .o32 4).setWidth 16) = some 0x3028 ∧
      stackUsable ((o.retItem .o32 4).setWidth 16) (descAt o 0x3028) (rpl ((o.retItem .o32 1).setWidth 16)) = true) ∧
    (Flags.ofWord (v.retItem .o32 2)).vm = true ∧ v.level = 0 :=
  ⟨⟨by decide +kernel, ⟨by decide +kernel, rfl⟩, by decide +kernel⟩, by decide +kernel⟩

/-! ### System instructions -/

/-- Level 1 and level 3. -/
theorem witness_PrivilegedRefused : IsPrivileged (.hlt p32) ∧ (prot 1).level ≠ 0 ∧ (prot 3).level ≠ 0 ∧ (prot 3).mode = .prot ∧
    real.mode ≠ .prot := ⟨.hlt, by decide +kernel, by decide +kernel, by decide +kernel, by decide +kernel⟩

theorem witness_CacheControlResult : (prot 0).level = 0 ∧ (prot 0).cache.foreign = false := by decide +kernel

/-- The last port as a byte and as a word; level 3 with the port's permission bit set. -/
theorem witness_PortResult :
    let s := withRegs ({ · with edx := 0xFFFF }) (prot 0)
    let u := withBytes 0x0C [0x01] (prot 3)
    (IsIn (.inAlDx p16) (.b, .dx) ∧ s.flat = true ∧ s.mayIo (s.port .dx) 1 ∧ (s.port .dx).toNat + 1 ≤ 65536) ∧
    (IsOut (.outDxEax p16) (.w, .dx) ∧ s.mayIo (s.port .dx) 2 ∧ 65536 < (s.port .dx).toNat + 2) ∧
    (u.flat = true ∧ ¬ u.mayIo (u.port (.imm 0x60)) 1) := by
  refine ⟨⟨.inAlDx, by decide +kernel, .inr (.inr (.inl (by decide +kernel))), by decide +kernel⟩,
    ⟨.outDxEax, .inr (.inr (.inl (by decide +kernel))), by decide +kernel⟩, by decide +kernel, ?_⟩
  rintro (h | h | ⟨-, h⟩ | ⟨-, -, -, h⟩)
  · exact absurd h (by decide +kernel)
  · exact absurd h (by decide +kernel)
  · exact absurd h (by decide +kernel)
  · have := h 0 (by decide)
    exact absurd this (by decide +kernel)

theorem witness_ControlRegisterResult : (prot 0).level = 0 ∧ IsReadCr (.movRCr2 p32 .ecx) (.ecx, .cr2) ∧
    IsWriteCr (.movCr4R p32 .eax) (.cr4, .eax) := ⟨by decide +kernel, .movRCr2, .movCr4R⟩

/-- DR4 under CR4.DE; DR7.GD set; neither. -/
theorem witness_DebugMoveResult :
    ({ prot 0 with cr := { (prot 0).cr with cr4 := 8 } }.level = 0 ∧ { prot 0 with cr := { (prot 0).cr with cr4 := 8 } }.dbgExt = true) ∧
    ({ prot 0 with dr := { (prot 0).dr with dr7 := 0x2400 } }.dbgExt = false ∧
      { prot 0 with dr := { (prot 0).dr with dr7 := 0x2400 } }.dr.dr7.getLsbD 13 = true) ∧
    (prot 0).dbgExt = false ∧ (prot 0).dr.dr7.getLsbD 13 = false := by decide +kernel

theorem witness_TableRegisterResult : sMem.flat = true ∧ sMem.level = 0 ∧
    sMem.may (segFor p32 mEbx) (effAddr mEbx sMem.gpr) 6 4 false = true := by decide +kernel

/-- A null selector; an LDT and an available TSS in the GDT. -/
theorem witness_SystemSegmentResult :
    let s := withBytes 0x3018 [0x67, 0, 0, 0x50, 0, 0x89, 0, 0] (withBytes 0x3020 [0x67, 0, 0, 0x60, 0, 0x82, 0, 0] (withGdt (prot 0)))
    let t := withRegs ({ · with eax := 0x18, ecx := 0x20 }) s
    (s.flat = true ∧ s.mode = .prot ∧ s.level = 0 ∧ s.mayUse .w false (placeOf p32 s.gpr (.reg .eax)) = true ∧
      nullSel (s.get .w (placeOf p32 s.gpr (.reg .eax))) = true) ∧
    (nullSel (t.get .w (placeOf p32 t.gpr (.reg .eax))) = false ∧ t.descAddr (t.get .w (placeOf p32 t.gpr (.reg .eax))) = some 0x3018 ∧
      (descAt t 0x3018).attr.typ = 9 ∧ (descAt t 0x3018).attr.s = false ∧ (descAt t 0x3018).attr.p = true) ∧
    t.descAddr (t.get .w (placeOf p32 t.gpr (.reg .ecx))) = some 0x3020 ∧ (descAt t 0x3020).attr.typ = 2 ∧
      (descAt t 0x3020).attr.s = false ∧ (descAt t 0x3020).attr.p = true := by decide +kernel

/-- A selector of the LDT, one beyond the GDT, a code segment, a busy TSS, and a TSS that is not present. -/
theorem witness_SystemSegmentFault :
    let s := withTasks (prot 0)
    let u := withBytes 0x3020 [0x67, 0, 0, 0x60, 0, 0x09, 0, 0] s
    systemFault s 0x24 [1, 9] = some vGP ∧ systemFault s 0x40 [2] = some vGP ∧ systemFault s 0x08 [2] = some vGP ∧
    systemFault s 0x18 [1, 9] = some vGP ∧ systemFault s 0x20 [1, 9] = none ∧ systemFault u 0x20 [1, 9] = some vNP ∧
    (withRegs ({ · with eax := 0x24 }) s).get .w (placeOf p32 s.gpr (.reg .eax)) = 0x24 := by decide +kernel

/-- The last register number of a run and the first that names none. -/
theorem witness_ReadModelSpecific : (prot 0).level = 0 ∧ (msrValue (prot 0).msr 1).isSome = true ∧ msrValue (prot 0).msr 2 = none ∧
    (withRegs ({ · with ecx := 0x82 }) (prot 0)).gpr.ecx = 0x82 ∧ (withRegs ({ · with eax := 1 }) (prot 0)).gpr.eax = 1 := by
  decide +kernel

/-- A known register, an unknown one; array numbers at both ends of the range. -/
theorem witness_WriteModelSpecific : (prot 0).level = 0 ∧ (msrStore (prot 0).msr 0x83 0 0xFF).isSome = true ∧
    msrStore (prot 0).msr 0x84 0 0 = none ∧ (withRegs ({ · with ecx := 0x82, edx := 0xE0 }) (prot 0)).gpr.edx.toNat % 256 = 0xE0 ∧
    (withRegs ({ · with ecx := 0x82, edx := 0xED }) (prot 0)).gpr.edx.toNat % 256 = 0xED := by decide +kernel

theorem witness_CompareExchangeResult : sMem.flat = true ∧ sMem.may (segFor p32 mEbx) (effAddr mEbx sMem.gpr) 8 8 true = true := by
  decide +kernel

/-- Outside SMM; in SMM at level 3; in SMM with an SMM base that is not a multiple of 32 Kbytes; in SMM with an area of zeros that
entry wrote; with the slots of an I/O restart, of a halt restart, and with a postponed debug trap. -/
theorem witness_ResumeResult :
    let smm (s : State) : State := { s with smm := { s.smm with active := true } }
    ((prot 0).smm.active = false ∧ (smm (prot 3)).smm.active = true ∧ (smm (prot 3)).level ≠ 0) ∧
    (let s := withBytes 0x3FEF8 [0x01] (smm (prot 0));
      s.smm.active = true ∧ s.level = 0 ∧ s.cache.foreign = false ∧ badSave s) ∧
    (let s := withBytes 0x3FFA4 [0x02] (withBytes 0x3FF00 [0xFF] (smm (prot 0)));
      restartAllowed s ∧ (s.slot 0xFF00).setWidth 16 = (0xFF : Half)) ∧
    (let s := withBytes 0x3FF02 [0x01] (smm (prot 0));
      restartAllowed s ∧ (s.slot 0xFF02).getLsbD 0 = true) ∧
    { prot 0 with smm := { (prot 0).smm with active := true, dbPostponed := true } }.smm.dbPostponed = true ∧
    let s := { prot 0 with smm := { (prot 0).smm with active := true, image := some (List.replicate 512 0) } }
    s.smm.active = true ∧ s.level = 0 ∧ s.cache.foreign = false ∧ oneMap s.plat = true ∧ ¬ badSave s ∧ handlerKept s ∧
      restartAllowed s ∧ plainResume s := by
  refine ⟨by decide +kernel, ⟨rfl, by decide +kernel, rfl, .inl (by decide +kernel)⟩,
    ⟨.inr ⟨by decide +kernel, by decide +kernel, by decide +kernel⟩, by decide +kernel⟩,
    ⟨.inl (by decide +kernel), by decide +kernel⟩, rfl, rfl, by decide +kernel, rfl, by decide +kernel, ?_, ?_, .inl (by decide +kernel), ?_⟩
  · rintro (h | h | ⟨h, -⟩ | ⟨h, -⟩) <;> exact absurd h (by decide +kernel)
  · intro img h k hk
    cases h
    refine .inr (.inr (.inr ?_))
    rw [show List.getD (List.replicate 512 (0 : Byte)) k 0 = 0 by
      rw [List.getD_eq_getElem?_getD, List.getElem?_replicate]; simp [hk]]
    rfl
  · exact ⟨by decide +kernel, by decide +kernel, rfl, rfl⟩

/-! ### Floating point -/

/-- A state with 1.0 and 2.0 on the x87 stack and EBX at free memory. -/
def sFp : State := withFpu [0x3FFF8000000000000000, 0x40008000000000000000] sMem

theorem witness_FpCompletes : fpReady sFp = true ∧ pcOk sFp = true ∧ IsFpReg (.fcompp p32) false ∧
    (IsFpRead (.faddM64 p32 mEbx) ⟨p32, mEbx, 8, 8⟩ true ∧ sFp.flat = true ∧
      sFp.may (segFor p32 mEbx) (effAddr mEbx sFp.gpr) 8 8 false = true) ∧
    IsFpWrite (.fstpM80 p32 mEbx) ⟨p32, mEbx, 10, 8⟩ ∧ sFp.may (segFor p32 mEbx) (effAddr mEbx sFp.gpr) 10 8 true = true :=
  ⟨by decide +kernel, by decide +kernel, .fcompp, ⟨.faddM64, by decide +kernel, by decide +kernel⟩, .fstpM80, by decide +kernel⟩

/-- EM set; an error pending; the reserved precision control; MP and TS for FWAIT. -/
theorem witness_FpChecks : isEsc (.fabs p32) ∧
    { sFp with cr := { sFp.cr with cr0 := 0x60000015 } }.em = true ∧
    (sFp.em = false ∧ sFp.ts = false ∧ { sFp with fpu := { sFp.fpu with sw := { sFp.fpu.sw with es := true } } }.fpu.sw.es = true) ∧
    (fpReady { sFp with fpu := { sFp.fpu with cw := 0x017F } } = true ∧ pcOk { sFp with fpu := { sFp.fpu with cw := 0x017F } } = false ∧
      IsFpReg (.faddStSti p32 1) true) ∧
    (IsFpRead (.faddM64 p32 mEbx) ⟨p32, mEbx, 8, 8⟩ true ∧ sFp.mayOperand ⟨p32, mEbx, 8, 8⟩ false) ∧
    { sFp with cr := { sFp.cr with cr0 := 0x6000001B } }.mp = true ∧ { sFp with cr := { sFp.cr with cr0 := 0x6000001B } }.ts = true :=
  ⟨.inl ⟨false, .fabs⟩, by decide +kernel, by decide +kernel, ⟨by decide +kernel, by decide +kernel, .faddStSti⟩,
    ⟨.faddM64, by decide +kernel, by decide +kernel⟩, by decide +kernel, by decide +kernel⟩

/-- 1.0 + 2.0 = 3.0, at 64 bits. -/
theorem witness_FpArithmeticExact :
    let x : Machine.Num := { neg := false, man := 2 ^ 63, exp := -63 }
    let y : Machine.Num := { neg := false, man := 2 ^ 63, exp := -62 }
    IsFpArith (.faddStSti p32 1) ⟨.add, 0, .st 1, false⟩ ∧ sFp.flat = true ∧ fpReady sFp = true ∧ pcOk sFp = true ∧
    sFp.fpu.empty 0 = false ∧ sFp.mayFp (.st 1) = true ∧ finiteExt (sFp.fpu.st 0) = some x ∧ sFp.fpFinite (.st 1) = some y ∧
    fpClass 0x4000C000000000000000 = .normal ∧ (fpSig 0x4000C000000000000000).toNat % 2 ^ (64 - sFp.fpu.prec) = 0 ∧
    FpArith.exactly .add x y (fpNum 0x4000C000000000000000) :=
  ⟨.faddStSti, by decide +kernel, by decide +kernel, by decide +kernel, by decide +kernel, by decide +kernel, by decide +kernel,
    by decide +kernel, by decide +kernel, by decide +kernel, by unfold FpArith.exactly; decide +kernel⟩

theorem witness_FpMoveResult : sFp.flat = true ∧ fpReady sFp = true ∧
    FpMove sFp (.fldSti p32 1) ⟨[(7, sFp.fpu.st 1)], sFp.fpu.sw.top - 1, none, true⟩ ∧
    FpMove sFp (.fxchSti p32 1) ⟨[(0, sFp.fpu.st 1), (1, sFp.fpu.st 0)], sFp.fpu.sw.top, none, true⟩ ∧
    FpMove sFp (.fstpSti p32 1) ⟨[(1, sFp.fpu.st 0)], sFp.fpu.sw.top + 1, some 0, true⟩ :=
  ⟨by decide +kernel, by decide +kernel, .fld (by decide +kernel) (by decide +kernel), .fxch (by decide +kernel) (by decide +kernel),
    .fstp (by decide +kernel)⟩

/-- 1.0 against 2.0; and a quiet NaN on top. -/
theorem witness_FpCompareResult : (IsFpCompare (.fcomSti p32 1) ⟨.st 1, false, .zero⟩ ∧ sFp.flat = true ∧ fpReady sFp = true ∧
      sFp.fpu.empty 0 = false ∧ sFp.mayFp (.st 1) = true ∧ (finiteExt (sFp.fpu.st 0)).isSome = true ∧ (sFp.fpFinite (.st 1)).isSome = true) ∧
    let s := withFpu [0x7FFFC000000000000000, 0x40008000000000000000] sMem
    fpUnordered s ⟨.st 1, false, .zero⟩ ∧ s.fpu.mask 0 = true ∧ fpReady s = true ∧ s.fpu.empty 0 = false :=
  ⟨⟨.fcomSti, by decide +kernel, by decide +kernel, by decide +kernel, by decide +kernel, by decide +kernel, by decide +kernel⟩,
    .inl (by decide +kernel), by decide +kernel, by decide +kernel, by decide +kernel⟩

/-- 32767.0 is the largest integer a word holds. -/
theorem witness_FpStoreInteger :
    let s := withFpu [0x400DFFFE000000000000] sMem
    IsFist (.fistpM16 p32 mEbx) ⟨p32, mEbx, 2, 2⟩ true ∧ s.flat = true ∧ fpReady s = true ∧
    s.may (segFor p32 mEbx) (effAddr mEbx s.gpr) 2 2 true = true ∧ s.fpu.empty 0 = false ∧ fpClass (s.fpu.st 0) = .normal ∧
    (((fpNum (s.fpu.st 0)).scaled (min 0 (fpNum (s.fpu.st 0)).exp)).natAbs : Int)
      ≤ (2 ^ (8 * 2 - 1) - 1) * 2 ^ (-(min 0 (fpNum (s.fpu.st 0)).exp)).toNat :=
  ⟨.p16, by decide +kernel, by decide +kernel, by decide +kernel, by decide +kernel, by decide +kernel, by decide +kernel⟩

/-- x87 values on the stack under a control word, and EBX at free memory. -/
def fpWith (cw : Half) (vs : List Ext) : State :=
  let s := withFpu vs sMem
  { s with fpu := { s.fpu with cw := cw } }

/-- Rounding to nearest, as a statement that evaluates. -/
theorem near {x : Machine.Num} {k : Int}
    (h : let e := min 0 x.exp
      let u : Int := 2 ^ (-e).toNat
      2 * (k * u - x.scaled e).natAbs ≤ u ∧ (2 * (k * u - x.scaled e).natAbs = u → k % 2 = 0)) : roundsTo 0 x k := h

/-- The same at a precision. -/
theorem rounds_near {p : Nat} {x : Machine.Num} {k q : Int}
    (h : let y : Machine.Num := { x with exp := x.exp - q }
      let e := min 0 y.exp
      let u : Int := 2 ^ (-e).toNat
      (2 ^ (p - 1) * u ≤ (y.scaled e).natAbs ∧ (y.scaled e).natAbs < 2 ^ p * u) ∧
        2 * (k * u - y.scaled e).natAbs ≤ u ∧ (2 * (k * u - y.scaled e).natAbs = u → k % 2 = 0)) :
    roundsAt 0 p x k q := ⟨h.1.1, h.1.2, h.2⟩

/-- 1 and 1 + 2^-64, which is halfway; the largest power of two doubled; half the smallest normal number. -/
theorem witness_FpDelivers :
    let half := fpWith 0x037F [0x3FFF8000000000000000, 0x3FBF8000000000000000]
    let big (cw : Half) := fpWith cw [0x7FFE8000000000000000, 0x7FFE8000000000000000]
    let low (cw : Half) := fpWith cw [0x8001C000000000000000, 0x00018000000000000000]
    let deliver (s : State) (z : Machine.Num) (v : Ext) : Prop :=
      ∃ x y o, finiteExt (s.fpu.st 0) = some x ∧ s.fpFinite (.st 1) = some y ∧ FpArith.exactly .add x y z ∧
        FpDelivers s.fpu s.fpu.prec z o ∧ o.v = v
    deliver half ⟨false, 2 ^ 64 + 1, -64⟩ 0x3FFF8000000000000000 ∧
    deliver (big 0x037F) ⟨false, 1, 16384⟩ 0x7FFF8000000000000000 ∧
    deliver (big 0x0377) ⟨false, 1, 16384⟩ 0x1FFF8000000000000000 ∧
    deliver (low 0x037F) ⟨true, 1, -16383⟩ 0x80004000000000000000 ∧
    deliver (low 0x036F) ⟨true, 1, -16383⟩ 0xE0008000000000000000 := by
  refine ⟨⟨_, _, _, rfl, rfl, by unfold FpArith.exactly; decide +kernel,
      .inRange (k := 2 ^ 63) (q := -63) (rounds_near (by decide +kernel)) (by decide +kernel) (by unfold Num.isMultiple; decide +kernel), rfl⟩,
    ⟨_, _, _, rfl, rfl, by unfold FpArith.exactly; decide +kernel,
      .overflow (k := 2 ^ 63) (q := 16321) (rounds_near (by decide +kernel)) (by decide +kernel) (by decide +kernel), rfl⟩,
    ⟨_, _, _, rfl, rfl, by unfold FpArith.exactly; decide +kernel,
      .overflowOpen (k := 2 ^ 63) (q := 16321) (rounds_near (by decide +kernel)) (by decide +kernel) (by decide +kernel)
        (by decide +kernel) (by unfold Num.isMultiple; decide +kernel), rfl⟩,
    ⟨_, _, _, rfl, rfl, by unfold FpArith.exactly; decide +kernel,
      .underflow (k := -2 ^ 63) (q := -16446) (j := -2 ^ 62) (rounds_near (by decide +kernel)) (by decide +kernel) (by decide +kernel)
        (near (by decide +kernel)) (.inl (by decide +kernel)) (by decide +kernel) (by unfold Num.isMultiple; decide +kernel), rfl⟩,
    ⟨_, _, _, rfl, rfl, by unfold FpArith.exactly; decide +kernel,
      .underflowOpen (k := -2 ^ 63) (q := -16446) (rounds_near (by decide +kernel)) (by decide +kernel) (by decide +kernel)
        (by decide +kernel) (by unfold Num.isMultiple; decide +kernel), rfl⟩⟩


/-- FSCALE of 1.0 by 2.0; FXAM of an empty register. -/
theorem witness_FpScale :
    (fpReady sFp = true ∧ sFp.fpu.empty 0 = false ∧ sFp.fpu.empty 1 = false ∧ fpClass (sFp.fpu.st 0) = .normal ∧
      fpClass (sFp.fpu.st 1) = .normal ∧ roundsTo 3 (fpNum (sFp.fpu.st 1)) 2 ∧
      ∃ o, FpDelivers sFp.fpu 64 { fpNum (sFp.fpu.st 0) with exp := (fpNum (sFp.fpu.st 0)).exp + 2 } o ∧
        o.v = 0x40018000000000000000) ∧
    fpReady sMem = true ∧ sMem.fpu.empty 0 = false ∧ (withFpu [] sMem).fpu.empty 0 = true ∧ fpReady (withFpu [] sMem) = true := by
  refine ⟨⟨by decide +kernel, by decide +kernel, by decide +kernel, by decide +kernel, by decide +kernel, ?_, _,
    .inRange (k := 2 ^ 63) (q := -61) (rounds_near (by decide +kernel)) (by decide +kernel) (by unfold Num.isMultiple; decide +kernel),
    rfl⟩, by decide +kernel⟩
  exact (by decide +kernel :
    let x := fpNum (sFp.fpu.st 1)
    let e := min 0 x.exp
    let u : Int := 2 ^ (-e).toNat
    ((2 : Int).natAbs * u ≤ (x.scaled e).natAbs ∧ (x.scaled e).natAbs < ((2 : Int).natAbs + 1) * u) ∧ 0 ≤ 2 * x.scaled e)

/-- FLD of 1.0 as real_32 and real_64; FRNDINT, FSCALE and FXTRACT of a zero, an infinity and 8.0. -/
theorem witness_FpExactMoves :
    let s (b : List Byte) := withBytes 0x2000 b sFp
    let z (v : Ext) := withFpu [v, 0x3FFF8000000000000000] sMem
    FpMove (s [0, 0, 0x80, 0x3F]) (.fldM32 p32 mEbx) ⟨[(7, 0x3FFF8000000000000000)], sFp.fpu.sw.top - 1, none, true⟩ ∧
    FpMove (s [0, 0, 0, 0, 0, 0, 0xF0, 0x3F]) (.fldM64 p32 mEbx) ⟨[(7, 0x3FFF8000000000000000)], sFp.fpu.sw.top - 1, none, true⟩ ∧
    FpMove (z 0) (.frndint p32) ⟨[(0, (z 0).fpu.st 0)], (z 0).fpu.sw.top, none, true⟩ ∧
    FpMove (z 0x7FFF8000000000000000) (.fscale p32)
      ⟨[(0, (z 0x7FFF8000000000000000).fpu.st 0)], (z 0x7FFF8000000000000000).fpu.sw.top, none, true⟩ ∧
    FpMove (z 0x40028000000000000000) (.fxtract p32)
      ⟨[(0, 0x4000C000000000000000), (7, fpMake (fpNeg ((z 0x40028000000000000000).fpu.st 0)) 16383
        (fpSig ((z 0x40028000000000000000).fpu.st 0)))], (z 0x40028000000000000000).fpu.sw.top - 1, none, true⟩ ∧
    FpMove (z 0x7FFF8000000000000000) (.fxtract p32) ⟨[(0, 0x7FFF8000000000000000), (7, (z 0x7FFF8000000000000000).fpu.st 0)],
      (z 0x7FFF8000000000000000).fpu.sw.top - 1, none, true⟩ :=
  ⟨.fld32 (x := ⟨false, 2 ^ 23, -23⟩) (by decide +kernel) (by decide +kernel) (by decide +kernel) (by unfold isNumber; decide +kernel),
    .fld64 (x := ⟨false, 2 ^ 52, -52⟩) (by decide +kernel) (by decide +kernel) (by decide +kernel) (by unfold isNumber; decide +kernel),
    .frndint (by decide +kernel) (.inl (by decide +kernel)),
    .fscale (by decide +kernel) (by decide +kernel) (.inr (by decide +kernel)) (.inr (by decide +kernel)),
    .fxtract (by decide +kernel) (by decide +kernel) (by decide +kernel) (by unfold isInteger; decide +kernel),
    .fxtractInf (by decide +kernel) (by decide +kernel) (by decide +kernel)⟩

/-- FST of a zero, an infinity, 1 + 2^-30, 2^200 and 2^-140 as real_32, the last two masked and not; FSTP of real_80; FRNDINT. -/
theorem witness_FpStoreReal :
    let stores (cw : Half) (v : Ext) (b : Option Nat) : Prop :=
      ∃ o, FpStores (fpWith cw [v]).fpu 8 23 ((fpWith cw [v]).fpu.st 0) o ∧ o.bits = b
    (IsFst (.fstM32 p32 mEbx) ⟨p32, mEbx, 4, 4⟩ 8 23 false ∧ sFp.flat = true ∧ fpReady sFp = true ∧
      sFp.may (segFor p32 mEbx) (effAddr mEbx sFp.gpr) 4 4 true = true ∧ sFp.fpu.empty 0 = false ∧
      sFp.may (segFor p32 mEbx) (effAddr mEbx sFp.gpr) 10 8 true = true ∧ fpClass (sFp.fpu.st 0) = .normal) ∧
    stores 0x037F 0x80000000000000000000 (some 0x80000000) ∧ stores 0x037F 0x7FFF8000000000000000 (some 0x7F800000) ∧
    stores 0x037F 0x3FFF8000000200000000 (some 0x3F800000) ∧
    stores 0x037F 0x40C78000000000000000 (some 0x7F800000) ∧ stores 0x0377 0x40C78000000000000000 none ∧
    stores 0x037F 0x3F738000000000000000 (some 0x200) ∧ stores 0x036F 0x3F738000000000000000 none :=
  ⟨⟨.m32, by decide +kernel⟩, ⟨_, .zero (by decide +kernel), by decide +kernel⟩, ⟨_, .inf (by decide +kernel), by decide +kernel⟩,
    ⟨_, .inRange (k := 2 ^ 23) (q := -23) (exp := 127) (frac := 0) (.inl (by decide +kernel)) (rounds_near (by decide +kernel))
      (by decide) (by decide) (by decide) (by unfold Num.isMultiple; decide +kernel), by decide +kernel⟩,
    ⟨_, .overflow (k := 2 ^ 23) (q := 177) (.inl (by decide +kernel)) (rounds_near (by decide +kernel)) (by decide +kernel)
      (by decide +kernel), by decide +kernel⟩,
    ⟨_, .overflowOpen (k := 2 ^ 23) (q := 177) (.inl (by decide +kernel)) (rounds_near (by decide +kernel)) (by decide +kernel)
      (by decide +kernel), rfl⟩,
    ⟨_, .underflow (k := 2 ^ 23) (q := -163) (j := 2 ^ 9) (.inl (by decide +kernel)) (rounds_near (by decide +kernel)) (by decide +kernel)
      (by decide +kernel) (near (by decide +kernel)), by decide +kernel⟩,
    ⟨_, .underflowOpen (k := 2 ^ 23) (q := -163) (.inl (by decide +kernel)) (rounds_near (by decide +kernel)) (by decide +kernel)
      (by decide +kernel), rfl⟩⟩

/-! ### Encoding and the machine -/

theorem witness_DecodeEncode : (Instr.addEvIv pLock (.mem (.m32 (some .esp) (some (.ebp, 3)) 0xFFFFFFFF)) 0xFFFFFFFF).wf = true := rfl

/-- A NOP at 100h with nothing else going on. -/
theorem witness_StepRunsDecoded :
    let s := withBytes 0x100 [0x90] (prot 0)
    Calm s ∧ s.intr.smi = false ∧ s.intr.init = false ∧ s.flat = true ∧ s.cache.marks = [] ∧ s.codeFits 1 ∧
    decode s.code32 (s.codeBytes 1) = .ok (.nop p32) 1 ∧ (Instr.nop p32).wf = true :=
  ⟨⟨rfl, rfl, by decide +kernel, by decide +kernel, by decide +kernel, by decide +kernel, by decide +kernel, by decide +kernel, rfl, .inl rfl, .inl rfl, rfl⟩,
    rfl, rfl, by decide +kernel, rfl, .inr fun k hk => (show k = 0 by omega) ▸ by decide +kernel, by rfl, rfl⟩

theorem witness_finish :
    let t := prot 0
    t.scr.noTrap = false ∧ t.scr.rfLoaded = false ∧ t.scr.tf = false ∧ t.hits = [] := by decide +kernel

theorem witness_StepKeepsInvariant : (prot 0).memOk = true ∧ (prot 0).crOk = true ∧
    nexts (step (withBytes 0x100 [0x90] (prot 0))) (fun _ => true) = true := by decide +kernel

/-- A page directory at 1000h and a page table at 2000h; a linear address in a present page, and one in none; a user access to
a supervisor page; a 4-Mbyte page, and one with a reserved bit. -/
def sPage (pde pte : Byte) : State :=
  withBytes 0x2000 [pte, 0x50] (withBytes 0x1000 [pde, 0x20]
    { prot 0 with cr := { (prot 0).cr with cr0 := 0xE0000011, cr3 := 0x1000 } })

theorem witness_PageWalk :
    ((sPage 1 1).pg = true ∧ (sPage 1 1).cache.foreign = false ∧ ramOnly (sPage 1 1).plat = true ∧
      (sPage 1 1).cache.tlbFind 0xFFF = none ∧ (sPage 1 1).cache.lineXlat 0xFFF ⟨false, false, false⟩ = none ∧
      ((sPage 1 1).cr.cr3 &&& 0xFFFFF000).toNat + 4 * ((0xFFF : Word).toNat / 4194304) = 0x1000 ∧
      (sPage 1 1).dword 0x1000 = 0x2001 ∧ (sPage 1 1).dword 0x2000 = 0x5001 ∧ ((sPage 1 1).pse && (0x2001 : Word).getLsbD 7) = false ∧
      pageAllows (sPage 1 1) ⟨false, false, false⟩ false false ∧ ¬ pageAllows (sPage 1 1) ⟨true, false, false⟩ false false) ∧
    ({ sPage 0x81 0 with cr := { (sPage 0x81 0).cr with cr4 := 0x10 } }.pse = true ∧ (sPage 0x81 0).dword 0x1000 = 0x2081 ∧
      (0x2081 : Word).extractLsb' 12 10 ≠ 0 ∧ (0x81 : Word).extractLsb' 12 10 = 0) ∧
    (sPage 0 1).dword 0x1000 = 0x2000 ∧ (sPage 1 0).dword 0x2000 = 0x5000 := by
  refine ⟨⟨by decide +kernel, by decide +kernel, by decide +kernel, by decide +kernel, by decide +kernel, by decide +kernel,
    by decide +kernel, by decide +kernel, by decide +kernel, ⟨by decide, by decide⟩, ?_⟩, by decide +kernel, by decide +kernel,
    by decide +kernel⟩
  rintro ⟨h, -⟩
  exact absurd (h rfl) (by decide)

/-- The quiet state at 100h is calm, whatever is latched that `Calm` leaves open. -/
theorem calm_prot : Calm (prot 0) ∧ Calm (edgeSmi (prot 0)) ∧ Calm (edgeInit (prot 0)) := by
  refine ⟨?_, ?_, ?_⟩
  all_goals exact ⟨rfl, rfl, by decide +kernel, by decide +kernel, by decide +kernel, by decide +kernel, by decide +kernel,
    by decide +kernel, rfl, .inl rfl, .inl rfl, rfl⟩

/-- SMI#, INIT and FLUSH# pending, the last with and without a modified line; the acknowledge cycle due; Halt. -/
theorem witness_BoundaryEvents :
    (let s := edgeSmi (prot 0);
      CalmAwake s ∧ s.intr.shadow = .none ∧ s.intr.smi = true ∧ s.smm.active = false ∧ s.cache.foreign = false ∧ oneMap s.plat = true) ∧
    (let s := edgeInit { prot 0 with clock := .shutdown };
      CalmAwake s ∧ s.intr.shadow = .none ∧ s.intr.smi = false ∧ s.intr.init = true ∧ s.smm.active = false) ∧
    (let s := edgeFlush (prot 0);
      Calm { s with intr := { s.intr with flush := false } } ∧ s.intr.shadow = .none ∧ s.intr.flush = true ∧ s.cache.foreign = false ∧
      (∀ l ∈ s.cache.dlines, l.mesi ≠ .modified)) ∧
    (let s := edgeFlush { prot 0 with cache := { Caches.empty with dlines := [⟨0x80, 0, none, .modified, none⟩] } };
      Calm { s with intr := { s.intr with flush := false } } ∧ ∃ l ∈ s.cache.dlines, l.mesi = .modified) ∧
    (let s := { prot 0 with biu := { (prot 0).biu with flush := .acknowledge } };
      Calm { s with biu := { s.biu with flush := .idle } } ∧ s.biu.flush = .acknowledge) ∧
    let s := { prot 0 with clock := .halt }
    CalmAwake s ∧ s.clock = .halt ∧ s.intr.shadow = .none ∧ noReset s :=
  ⟨⟨⟨calm_prot.2.1, .inl rfl⟩, rfl, rfl, rfl, rfl, by decide +kernel⟩, ⟨⟨calm_prot.2.2, .inr (.inr rfl)⟩, rfl, rfl, rfl, rfl⟩,
    ⟨calm_prot.1, rfl, rfl, rfl, fun _ h => (List.not_mem_nil h).elim⟩,
    ⟨⟨rfl, rfl, by decide +kernel, by decide +kernel, by decide +kernel, by decide +kernel, by decide +kernel,
      by decide +kernel, rfl, .inl rfl, .inl rfl, rfl⟩, ⟨_, List.mem_cons_self, rfl⟩⟩,
    ⟨calm_prot.1, rfl⟩, ⟨⟨calm_prot.1, .inr (.inl rfl)⟩, rfl, rfl, rfl, rfl⟩⟩

/-- NMI in Shutdown, INTR in Halt, a debug trap, a machine check, STPCLK#, and Stop Grant with STPCLK# asserted. -/
theorem witness_BoundaryInterrupts :
    (let s := edgeNmi { prot 0 with clock := .shutdown };
      CalmAwake { s with intr := { s.intr with nmi := false } } ∧ s.intr.shadow = .none ∧ noReset s ∧ s.intr.nmi = true ∧
      s.intr.nmiMasked = false) ∧
    (let s := { withFlags ({ · with ifl := true }) (prot 0) with clock := .halt, pins := { (prot 0).pins with intr := true } };
      CalmAwake { s with pins := { s.pins with intr := false } } ∧ s.clock ≠ .shutdown ∧ s.intr.shadow = .none ∧ noReset s ∧
      s.pins.intr = true ∧ s.flags.ifl = true) ∧
    (let s := { prot 0 with intr := { (prot 0).intr with dbTrap := true, shadow := .sti } };
      CalmAwake { s with intr := { s.intr with dbTrap := false } } ∧ s.intr.shadow ≠ .ss ∧ s.intr.smi = false ∧ s.clock ≠ .shutdown ∧
        s.intr.dbTrap = true) ∧
    (let s := { prot 0 with intr := { (prot 0).intr with mcPending := true, shadow := .ss } };
      Calm { s with intr := { s.intr with mcPending := false } } ∧ s.intr.shadow ≠ .init ∧ s.intr.mcPending = true) ∧
    (let s := { prot 0 with pins := { (prot 0).pins with stpclk := true } };
      CalmAwake { s with pins := { s.pins with stpclk := false } } ∧ s.intr.shadow = .none ∧ noReset s ∧ s.pins.stpclk = true ∧
      s.intr.grantExit = false) ∧
    let s := { prot 0 with clock := .stopGrant .normal, pins := { (prot 0).pins with stpclk := true } }
    Calm { s with clock := .normal, pins := { s.pins with stpclk := false } } ∧ s.pins.stpclk = true :=
  ⟨⟨⟨calm_prot.1, .inr (.inr rfl)⟩, rfl, ⟨rfl, rfl⟩, rfl, rfl⟩,
    ⟨⟨⟨rfl, rfl, by decide +kernel, by decide +kernel, by decide +kernel, by decide +kernel, by decide +kernel,
      by decide +kernel, rfl, .inl rfl, .inl rfl, rfl⟩, .inr (.inl rfl)⟩, by decide, rfl, ⟨rfl, rfl⟩, rfl, rfl⟩,
    ⟨⟨⟨rfl, rfl, by decide +kernel, by decide +kernel, by decide +kernel, by decide +kernel, by decide +kernel,
      by decide +kernel, rfl, .inl rfl, .inl rfl, rfl⟩, .inl rfl⟩, by decide, rfl, by decide, rfl⟩,
    ⟨⟨rfl, rfl, by decide +kernel, by decide +kernel, by decide +kernel, by decide +kernel, by decide +kernel,
      by decide +kernel, rfl, .inl rfl, .inl rfl, rfl⟩, by decide, rfl⟩,
    ⟨⟨calm_prot.1, .inl rfl⟩, rfl, ⟨rfl, rfl⟩, rfl, rfl⟩, ⟨calm_prot.1, rfl⟩⟩

end Sys2Proof.Tests
end

section
/-! PROOFS. O55: the statement bounds the fetch by the limit of CS alone, and in Protected mode a null CS stops it too (R112, log 8). -/
namespace Sys2Proof.Machine

open Sys2Proof

/-! ### A fetch through a null CS -/

/-- In Protected mode the null selector is checked before anything else of an access (R112 step 2). -/
theorem segCheck_null {seg : Seg} {off : Word} {n : Nat} {k : Kind} {s : State} (hm : s.mode = .prot)
    (hn : nullSel (s.seg.get seg).sel = true) :
    segCheck seg off n k s = .error (.exc (Exc.fault k.accessVec (some 0))) s := by
  unfold segCheck
  rw [M.get_bind]
  simp only [hm, hn]
  rfl

theorem fetchNext_nullCs {off : Word} {prev : Option Xlat} {s : State} (hm : s.mode = .prot)
    (hn : nullSel s.seg.cs.sel = true) :
    fetchNext off false prev s = .error (.exc (Exc.fault vGP (some 0))) s := by
  unfold fetchNext
  rw [M.get_bind]
  exact M.bind_error (segCheck_null (seg := .cs) (k := .execute) hm hn)

/-- No byte of an instruction is read: the fetch of the first one raises GP(0). -/
theorem fetchInstr_nullCs (fuel : Nat) {s : State} (hm : s.mode = .prot) (hn : nullSel s.seg.cs.sel = true) :
    fetchInstr (fuel + 2) [] none s = .error (.exc (Exc.fault vGP (some 0))) s :=
  M.bind_error (m := fetchByteAfter [] (decidedInvalid s []) none) (fetchNext_nullCs hm hn)

/-- The step through a null CS takes GP(0), whatever the bytes at CS:EIP decode to. -/
theorem runInstr_nullCs {s : State} (hm : s.mode = .prot) (hn : nullSel s.seg.cs.sel = true)
    (hb : s.dr.dr7.extractLsb' 0 8 = 0) :
    runInstr s = fetchException (Exc.fault vGP (some 0)) (begin s) (begin s) := by
  have hbreak : checkBreak (begin s) = .ok () (begin s) := by
    unfold checkBreak
    rw [M.get_bind, if_pos (by simp [begin, hb])]
    rfl
  have hfetch : fetchDecode (begin s) = .error (.exc (Exc.fault vGP (some 0))) (begin s) := by
    unfold fetchDecode
    rw [M.bind_ok hbreak]
    exact M.bind_error (fetchInstr_nullCs 14 hm hn)
  unfold runInstr
  rw [hfetch]

/-! ### The clock state at the end of a step -/

/-- The clock-control state that an outcome leaves the machine in. -/
def outcomeClock : Host.Outcome State Fault Refusal → Option Clock
  | .next t => some t.clock
  | .fault _ => none
  | .refused _ => none

theorem Snooped.clock {s t : State} (h : Snooped s t) : t.clock = s.clock := by
  obtain ⟨⟨m, c, b, rfl⟩, -⟩ := h
  rfl

theorem openStep_clock (s : State) : (openStep s).clock = s.clock := by rw [openStep_eq]

theorem finish_clock (s : State) : (finish s).clock = s.clock := by
  unfold finish noteTraps clearRf
  split
  · rfl
  · dsimp only
    split <;> split <;> rfl

theorem answerSnoops_clock (s : State) : (answerSnoops s).clock = s.clock := by
  have hanswer := (answerArrived_snooped (fun _ => true) s).clock
  unfold answerSnoops reportSnoops
  split <;> exact hanswer

theorem abortCycle_clock (s t : State) : (abortCycle s t).clock = t.clock := by rw [abortCycle_eq]

/-- Done or made to wait, a step that keeps the clock state ends in it. -/
theorem settle_clock {s t : State} (h : t.clock = s.clock) : (settle s t).clock = s.clock := by
  rcases settle_cases s t with ⟨-, e⟩ | ⟨-, e⟩ <;> rw [e, abortCycle_clock, answerSnoops_clock]
  · rfl
  · exact h

/-! ### The counterexample -/

/-- A NOP at 0:100h, the state that MOV CR0 leaves when it sets PE with the Real-mode CS still 0: paging off, nothing pending, no
gate in the IDT. -/
def nullCs : State :=
  { State.reset with
    eip := 0x100
    cr := { State.reset.cr with cr0 := 0x60000011 }
    seg := { SegFile.reset with cs := { SegReg.resetCs with sel := 0, base := 0 } }
    mem := [(0x100, 0x90)] }

theorem nullCs_calm : Calm nullCs where
  clock := rfl
  float := rfl
  tap := by decide
  hdt := by decide
  dc := by decide
  bus := by decide
  idle := by decide
  trap := by decide
  flush := rfl
  nmi := .inl rfl
  intr := .inl rfl
  stpclk := rfl

theorem nullCs_codeFits : nullCs.codeFits 1 :=
  .inr fun k hk => by
    obtain rfl : k = 0 := by omega
    decide

theorem nullCs_decode : decode nullCs.code32 (nullCs.codeBytes 1) = .ok (.nop (Pfx.base false)) 1 := by rfl

/-- GP(0) finds no gate, nor does the double fault after it: the step ends in Shutdown. -/
theorem nullCs_step : outcomeClock (step nullCs) = some .shutdown := by
  have hrun : advanceOnce (openStep nullCs) = _ :=
    runInstr_nullCs (s := tick (openStep nullCs)) (by decide) (by decide) (by decide)
  unfold step
  rw [hrun]
  decide +kernel

end Sys2Proof.Machine

open Sys2Proof Sys2Proof.Machine

/-- Refutes O55: `codeFits` bounds the offsets by the limit of CS and does not ask for a CS that can be fetched through. In
`nullCs` every hypothesis holds, yet the step takes GP(0) instead of running the NOP (R112) and ends in Shutdown, where the
NOP would leave the Normal state. -/
theorem not_stepRunsDecoded : ¬ Obligations.StepRunsDecoded := by
  unfold Obligations.StepRunsDecoded
  rintro ⟨hruns, -, -⟩
  obtain ⟨u, hstep, hu, -⟩ := hruns (.nop (Pfx.base false)) 1 nullCs nullCs_calm rfl rfl (by decide) rfl (by decide)
    nullCs_codeFits nullCs_decode rfl
  have hclock : u.clock = nullCs.clock := (congrArg State.clock hu).trans rfl
  have hnop : step nullCs = .next (settle (openStep nullCs) (finish u.advance)) := hstep
  have hnormal : outcomeClock (step nullCs) = some .normal := by
    rw [hnop]
    exact congrArg some (settle_clock (by rw [finish_clock, openStep_clock]; exact hclock))
  rw [nullCs_step] at hnormal
  cases hnormal

end

section
/-! PROOFS. O53 and O54: the prefixes of an instruction give its sizes, segment and LOCK again (R260 to R262), and behind them each
instruction's opcode and operands are read back (Laws/PerInstr.lean). -/
namespace Sys2Proof

/-! ### The prefixes -/

/-- The LOCK byte, if any (R261). -/
def lockPrefix (l : Bool) : List Byte := if l then [0xF0] else []

/-- The segment override byte, if any (R261). -/
def segPrefix (s : Option Seg) : List Byte := s.elim [] fun sg => [sg.override]

/-- The byte `b` (66h or 67h) where the size differs from the default of the code segment (R262). -/
def sizePrefix (d : Bool) (b : Byte) (o : OSz) : List Byte := if o = defaultSize d then [] else [b]

theorem encodePfx_eq (d : Bool) (p : Pfx) :
    encodePfx d p = lockPrefix p.lock ++ (segPrefix p.seg ++ (sizePrefix d 0x66 p.osz ++ sizePrefix d 0x67 p.asz)) := by
  obtain ⟨l, s, o, a⟩ := p
  cases s <;> simp [encodePfx, lockPrefix, segPrefix, sizePrefix]

/-- There are two sizes: the one that is not the default is the other one (R262). -/
theorem OSz.eq_flip {o d : OSz} (h : o ≠ d) : o = d.flip := by
  revert h
  cases o <;> cases d <;> decide

/-! ### The decoder at the prefixes -/

section
variable {d : Bool} {q : Pfx} (n : Nat) (bs : List Byte)

theorem decodeFrom_notPrefix {b : Byte} (h : notPrefix b) : decodeFrom d q n (b :: bs) = decodeOpcode q n b bs := by
  obtain ⟨h66, h67, hF0, hseg⟩ := h
  simp only [decodeFrom, if_neg h66, if_neg h67, if_neg hF0, hseg]

theorem decodeFrom_lockPrefix (l : Bool) (h : q.lock = false) :
    decodeFrom d q n (lockPrefix l ++ bs) = decodeFrom d { q with lock := l } (n + (lockPrefix l).length) bs := by
  cases l with
  | false => obtain ⟨_, _, _, _⟩ := q; subst h; rfl
  | true => rfl

theorem decodeFrom_override (sg : Seg) :
    decodeFrom d q n (sg.override :: bs) = decodeFrom d (q.withSeg sg) (n + 1) bs := by
  cases sg <;> rfl

theorem decodeFrom_segPrefix (s : Option Seg) (h : q.seg = none) :
    decodeFrom d q n (segPrefix s ++ bs) = decodeFrom d { q with seg := s } (n + (segPrefix s).length) bs := by
  cases s with
  | none => obtain ⟨_, _, _, _⟩ := q; subst h; rfl
  | some sg => exact decodeFrom_override n bs sg

theorem decodeFrom_oszPrefix (o : OSz) (h : q.osz = defaultSize d) :
    decodeFrom d q n (sizePrefix d 0x66 o ++ bs)
      = decodeFrom d { q with osz := o } (n + (sizePrefix d 0x66 o).length) bs := by
  by_cases ho : o = defaultSize d
  · rw [sizePrefix, if_pos ho, ho, ← h]; rfl
  · rw [sizePrefix, if_neg ho, OSz.eq_flip ho]; rfl

theorem decodeFrom_aszPrefix (o : OSz) (h : q.asz = defaultSize d) :
    decodeFrom d q n (sizePrefix d 0x67 o ++ bs)
      = decodeFrom d { q with asz := o } (n + (sizePrefix d 0x67 o).length) bs := by
  by_cases ho : o = defaultSize d
  · rw [sizePrefix, if_pos ho, ho, ← h]; rfl
  · rw [sizePrefix, if_neg ho, OSz.eq_flip ho]; rfl

end

/-- The prefixes of `p` turn the defaults of the code segment into `p`, and the decoder goes on behind them. -/
theorem decodeFrom_encodePfx (d : Bool) (p : Pfx) (bs : List Byte) :
    decodeFrom d (Pfx.base d) 0 (encodePfx d p ++ bs) = decodeFrom d p (encodePfx d p).length bs := by
  simp only [encodePfx_eq, List.append_assoc, List.length_append]
  rw [decodeFrom_lockPrefix _ _ _ rfl, decodeFrom_segPrefix _ _ _ rfl, decodeFrom_oszPrefix _ _ _ rfl,
    decodeFrom_aszPrefix _ _ _ rfl]
  simp only [Nat.zero_add, Nat.add_assoc]

/-! ### Every instruction -/

namespace Laws.Encoding

/-- One case for each constructor, in the order of `Instr`, closed by the lemma of the constructor's name. -/
theorem decodeOpcode_encodeBody (i : Instr) : Statement i :=
  i.casesOn
    fabs fchs fcompp fdecstp fnop frndint fscale ftst fucompp fxam fxtract faddStSti faddStiSt faddpStiSt fcomSti
    fcompSti fldSti fmulStSti fmulStiSt fmulpStiSt fstSti fstpSti fsubStSti fsubStiSt fsubpStiSt fsubrStSti fsubrStiSt
    fsubrpStiSt fucomSti fucompSti fxchSti addEbIb addEvIv addEvIbs orEbIb orEvIv orEvIbs adcEbIb adcEvIv adcEvIbs
    sbbEbIb sbbEvIv sbbEvIbs andEbIb andEvIv andEvIbs subEbIb subEvIv subEvIbs xorEbIb xorEvIv xorEvIbs cmpEbIb
    cmpEvIv cmpEvIbs popEv rolEbIb rolEvIb rolEb1 rolEv1 rolEbCl rolEvCl rorEbIb rorEvIb rorEb1 rorEv1 rorEbCl rorEvCl
    shlEbIb shlEvIb shlEb1 shlEv1 shlEbCl shlEvCl shrEbIb shrEvIb shrEb1 shrEv1 shrEbCl shrEvCl sarEbIb sarEvIb sarEb1
    sarEv1 sarEbCl sarEvCl movEbIb movEvIv testEbIb notEb negEb mulEb imulEb divEb idivEb testEvIv notEv negEv mulEv
    imulEv divEv idivEv incEb decEb incEv decEv callEv jmpEv jmpMp pushEv lldtEw ltrEw lgdtMs lidtMs invlpgM movRCr0
    movRCr2 movRCr3 movRCr4 movCr0R movCr2R movCr3R movCr4R btEvIb btsEvIb btrEvIb btcEvIb cmpxchg8bMq faddM32 faddM64
    fcomM32 fcomM64 fcompM32 fcompM64 fiaddM16 fiaddM32 ficomM16 ficomM32 ficompM16 ficompM32 fildM16 fildM32 fildM64
    fimulM16 fimulM32 fistM16 fistM32 fistpM16 fistpM32 fistpM64 fisubM16 fisubM32 fisubrM16 fisubrM32 fldM32 fldM64
    fldM80 fmulM32 fmulM64 fstM32 fstM64 fstpM32 fstpM64 fstpM80 fsubM32 fsubM64 fsubrM32 fsubrM64 addEbGb addEvGv
    addGbEb addGvEv addAlIb addEaxIv orEbGb orEvGv orGbEb orGvEv orAlIb orEaxIv adcEbGb adcEvGv adcGbEb adcGvEv
    adcAlIb adcEaxIv sbbEbGb sbbEvGv sbbGbEb sbbGvEv sbbAlIb sbbEaxIv andEbGb andEvGv andGbEb andGvEv andAlIb andEaxIv
    subEbGb subEvGv subGbEb subGvEv subAlIb subEaxIv xorEbGb xorEvGv xorGbEb xorGvEv xorAlIb xorEaxIv cmpEbGb cmpEvGv
    cmpGbEb cmpGvEv cmpAlIb cmpEaxIv popSs pushIv imulGvEvIv pushIbs imulGvEvIbs testEbGb testEvGv xchgEbGb xchgEvGv
    movEbGb movEvGv movGbEb movGvEv movEwSreg leaGvM movSregEw nop cbw cwd fwait pushf popf movAlMoffs movEaxMoffs
    movMoffsAl movMoffsEax testAlIb testEaxIv retIw ret int3 intIb iret loopneRel8 loopeRel8 loopRel8 jcxzRel8 inAlIb
    inEaxIb outIbAl outIbEax callRelv jmpRelv jmpPtr jmpRel8 inAlDx inEaxDx outDxAl outDxEax hlt cli sti invd wbinvd
    movRDr movDrR wrmsr rdtsc rdmsr cpuid btEvGv shldEvGvIb shldEvGvCl rsm btsEvGv shrdEvGvIb shrdEvGvCl imulGvEv
    btrEvGv movzxGvEb movzxGvEw btcEvGv bsfGvEv bsrGvEv movsxGvEb movsxGvEw illegal0FFF incR decR pushR popR xchgEaxR
    movR8Ib movRIv bswapR jccRel8 jccRelv setccEb

end Laws.Encoding

/-- Prefixes, opcode and operands together. -/
theorem decode_encode (d : Bool) (i : Instr) (rest : List Byte) (h : i.wf = true) :
    decode d (encode d i ++ rest) = .ok i (encode d i).length := by
  obtain ⟨b, bs, hbytes, hb, hdec⟩ := Laws.Encoding.decodeOpcode_encodeBody i h (encodePfx d i.pfx).length rest
  calc decode d (encode d i ++ rest)
      = decodeFrom d (Pfx.base d) 0 (encodePfx d i.pfx ++ (b :: bs)) := by
        rw [decode, encode, List.append_assoc, hbytes]
    _ = decodeFrom d i.pfx (encodePfx d i.pfx).length (b :: bs) := decodeFrom_encodePfx d i.pfx _
    _ = decodeOpcode i.pfx (encodePfx d i.pfx).length b bs := decodeFrom_notPrefix _ _ hb
    _ = .ok i (encode d i).length := by rw [hdec, encode, List.length_append]

end Sys2Proof

open Sys2Proof

/-- Settles O53: the prefixes give the `Pfx` of the instruction, and the lemma of each constructor the rest. -/
theorem decodeEncode : Obligations.DecodeEncode := by
  unfold Obligations.DecodeEncode
  exact decode_encode

/-- Settles O54, by running the decoder on the six words. -/
theorem decodeSamples : Obligations.DecodeSamples := by
  unfold Obligations.DecodeSamples
  exact ⟨rfl, rfl, rfl, rfl, rfl, rfl⟩

end

section
/-! PROOFS. O32: nothing that delivers an event ends in a fault or a refusal of the model, so that the chain of second exceptions ends in
a handler or in Shutdown (R620, R628, R630). -/
namespace Sys2Proof.Machine

open Sys2Proof

/-! ### Computations that stop with an exception alone -/

/-- A computation that stops, if it does, with an exception: not with a fault or a refusal of the model, and not to wait. -/
structure OnlyRaises {α : Type} (m : M α) : Prop where
  stop : ∀ {s t : State} {x : Stop}, m s = .error x t → ∃ e, x = .exc e

section
variable {α β : Type}

theorem OnlyRaises.pure (a : α) : OnlyRaises (pure a : M α) := ⟨fun h => nomatch h⟩
theorem OnlyRaises.get : OnlyRaises (get : M State) := ⟨fun h => nomatch h⟩
theorem OnlyRaises.set (s : State) : OnlyRaises (set s : M PUnit) := ⟨fun h => nomatch h⟩
theorem OnlyRaises.update (f : State → State) : OnlyRaises (update f) := ⟨fun h => nomatch h⟩
theorem OnlyRaises.drawBit : OnlyRaises drawBit := ⟨fun h => nomatch h⟩
theorem OnlyRaises.drawBits (w : Nat) : OnlyRaises (drawBits w) := ⟨fun h => nomatch h⟩

theorem OnlyRaises.throw (e : Exc) : OnlyRaises (throw (.exc e) : M α) := by
  refine ⟨fun h => ?_⟩
  cases h
  exact ⟨e, rfl⟩

theorem OnlyRaises.raise (v : Byte) (c : Option Half) : OnlyRaises (raise v c : M α) := OnlyRaises.throw _

/-- A sequence stops where one of its two parts does. -/
theorem OnlyRaises.bind {m : M α} {f : α → M β} (hm : OnlyRaises m) (hf : ∀ a, OnlyRaises (f a)) : OnlyRaises (m >>= f) := by
  refine ⟨fun {s _ _} h => ?_⟩
  cases hs : m s with
  | ok a u => rw [M.bind_ok hs] at h; exact (hf a).stop h
  | error y u => rw [M.bind_error hs] at h; cases h; exact hm.stop hs

theorem OnlyRaises.ite {c : Prop} [Decidable c] {m n : M α} (hm : OnlyRaises m) (hn : OnlyRaises n) :
    OnlyRaises (if c then m else n) := by
  split
  · exact hm
  · exact hn

theorem OnlyRaises.check (c : Bool) (v : Byte) (e : Option Half) : OnlyRaises (check c v e) :=
  .ite (.pure _) (.raise v e)

theorem OnlyRaises.doWhen (c : Bool) {m : M Unit} (hm : OnlyRaises m) : OnlyRaises (doWhen c m) := .ite hm (.pure _)

end

/-! ### Translation and the opening of accesses -/

theorem finishWalk_onlyRaises (la : Word) (a : Access) (w : Walk) : OnlyRaises (finishWalk la a w) := by
  unfold finishWalk
  split
  · exact .bind (.set _) fun _ => .throw _
  · exact .bind (.set _) fun _ => .pure _

theorem finishTlb_onlyRaises (la : Word) (a : Access) (o : WalkOut) : OnlyRaises (finishTlb la a o) := by
  cases o with
  | fault p => exact .throw _
  | ok e => exact .pure _

theorem translatePaged_onlyRaises (la : Word) (a : Access) : OnlyRaises (translatePaged la a) := by
  unfold translatePaged
  refine .bind .get fun s => ?_
  dsimp only
  split
  · exact finishWalk_onlyRaises ..
  · split
    · exact finishWalk_onlyRaises ..
    · exact .ite (finishTlb_onlyRaises ..)
        (.bind .drawBit fun _ => .ite (finishTlb_onlyRaises ..) (finishWalk_onlyRaises ..))

/-- A translation stops with a page fault alone (R127). -/
theorem translate_onlyRaises (la : Word) (a : Access) : OnlyRaises (translate la a) := by
  unfold translate
  refine .bind .get fun s => .ite (.pure _) ?_
  split
  · exact translatePaged_onlyRaises la a
  · exact .bind .drawBit fun _ => .ite (.pure _) (translatePaged_onlyRaises la a)

theorem pageXlat_onlyRaises (la : Word) (a : Access) (prev : Option Xlat) : OnlyRaises (pageXlat la a prev) := by
  cases prev with
  | none => exact translate_onlyRaises la a
  | some x => exact .ite (translate_onlyRaises la a) (.pure _)

theorem spanBytes_onlyRaises (a : Access) (la : Nat → Word) (k : Nat) :
    ∀ (i : Nat) (prev : Option Xlat), OnlyRaises (spanBytes a la k i prev) := by
  induction k with
  | zero => exact fun _ _ => .pure _
  | succ k ih => exact fun i prev => .bind (pageXlat_onlyRaises ..) fun x => .bind (ih _ _) fun _ => .pure _

theorem openSys_onlyRaises (la : Word) (n : Nat) (w : Bool) : OnlyRaises (openSys la n w) :=
  .bind .get fun _ => spanBytes_onlyRaises ..

theorem segCheck_onlyRaises (seg : Seg) (off : Word) (n : Nat) (k : Kind) : OnlyRaises (segCheck seg off n k) := by
  unfold segCheck
  refine .bind .get fun s => ?_
  dsimp only
  cases s.mode
  case real => exact .check ..
  case prot => exact .bind (.check ..) fun _ => .check ..
  case v86 => exact .check ..
  case smm => exact .pure _

theorem alignCheck_onlyRaises (la : Word) (al : Nat) : OnlyRaises (alignCheck la al) := .bind .get fun _ => .check ..

theorem noteOne_onlyRaises (n : Nat) (as : List Word) : OnlyRaises (noteOne n as) := by
  unfold noteOne
  refine .bind .get fun s => ?_
  split
  · exact .bind .drawBit fun _ => .ite (.update _) (.pure _)
  · exact .ite (.update _) (.pure _)

theorem noteData_onlyRaises (w : Bool) (bs : List Byt) : OnlyRaises (noteData w bs) :=
  .bind .get fun _ => .ite (.pure _) (.bind (.doWhen _ (noteOne_onlyRaises ..)) fun _ =>
    .bind (.doWhen _ (noteOne_onlyRaises ..)) fun _ => .bind (.doWhen _ (noteOne_onlyRaises ..)) fun _ =>
      .doWhen _ (noteOne_onlyRaises ..))

/-- The checks of a data access stop with an exception alone (R112, R617). -/
theorem openAs_onlyRaises (k : Kind) (seg : Seg) (off : Word) (n al : Nat) : OnlyRaises (openAs k seg off n al) :=
  .bind (segCheck_onlyRaises ..) fun _ => .bind .get fun _ => .bind (alignCheck_onlyRaises ..) fun _ =>
    .bind (.bind .get fun _ => spanBytes_onlyRaises ..) fun _ => .bind (noteData_onlyRaises ..) fun _ => .pure _

/-! ### Moving the bytes, which cannot stop -/

theorem peekAs_onlyRaises (lock : Bool) (bs : List Byt) : OnlyRaises (peekAs lock bs) :=
  .ite (.bind (.update _) fun _ => .bind .get fun _ => .pure _) (.bind (.update _) fun _ => .bind .get fun _ => .pure _)

theorem peek_onlyRaises (bs : List Byt) : OnlyRaises (peek bs) := peekAs_onlyRaises false bs

theorem pokeAs_onlyRaises (lock : Bool) (bs : List Byt) (vs : List Byte) : OnlyRaises (pokeAs lock bs vs) := .update _

theorem pokeAll_onlyRaises (w : List (List Byt × List Byte)) : OnlyRaises (pokeAll w) := by
  induction w with
  | nil => exact .pure _
  | cons x t ih => exact .bind (pokeAs_onlyRaises false x.1 x.2) fun _ => ih

theorem lockedUpdate_onlyRaises (bs : List Byt) (f : Byte → Byte) : OnlyRaises (lockedUpdate bs f) :=
  .bind (peekAs_onlyRaises true bs) fun _ => pokeAs_onlyRaises ..

theorem sysVal_onlyRaises (w : Nat) (la : Word) (n : Nat) : OnlyRaises (sysVal w la n) :=
  .bind (.bind (openSys_onlyRaises ..) fun _ => peek_onlyRaises _) fun _ => .pure _

theorem sysDesc_onlyRaises (la : Word) : OnlyRaises (sysDesc la) :=
  .bind (openSys_onlyRaises ..) fun _ => .bind (peek_onlyRaises _) fun _ => .bind (peek_onlyRaises _) fun _ => .pure _

/-! ### The stack and descriptors -/

theorem openPushes_onlyRaises (big : Bool) (its : List PushItem) : ∀ esp : Word, OnlyRaises (openPushes big esp its) := by
  induction its with
  | nil => exact fun _ => .pure _
  | cons it its ih => exact fun esp => .bind (openAs_onlyRaises ..) fun _ => .bind (ih _) fun _ => .pure _

theorem commitPushes_onlyRaises (w : List (List Byt × List Byte) × Word) : OnlyRaises (commitPushes w) :=
  .bind (pokeAll_onlyRaises _) fun _ => .update _

theorem pushItems_onlyRaises (its : List PushItem) : OnlyRaises (pushItems its) :=
  .bind .get fun _ => .bind (openPushes_onlyRaises ..) fun _ => commitPushes_onlyRaises _

theorem readDesc_onlyRaises (sel : Half) (v : Byte) (code : Half) : OnlyRaises (readDesc sel v code) := by
  unfold readDesc
  refine .bind .get fun s => ?_
  split
  · exact .raise ..
  · exact .bind (sysDesc_onlyRaises _) fun _ => .pure _

theorem openAccessed_onlyRaises (d : Desc) : OnlyRaises (openAccessed d) := .ite (.pure _) (openSys_onlyRaises ..)

theorem setAccessed_onlyRaises (bs : List Byt) : OnlyRaises (setAccessed bs) := by
  cases bs with
  | nil => exact .pure _
  | cons b t => exact lockedUpdate_onlyRaises ..

theorem loadStackSeg_onlyRaises (sel : Half) (level : Nat) (v : Byte) (ext : Bool) :
    OnlyRaises (loadStackSeg sel level v ext) :=
  .bind (.check ..) fun _ => .bind (readDesc_onlyRaises ..) fun _ => .bind (.check ..) fun _ => .bind (.check ..) fun _ =>
    .bind (openAccessed_onlyRaises _) fun _ => .bind (setAccessed_onlyRaises _) fun _ => .update _

theorem loadDataSeg_onlyRaises (r : Seg) (sel : Half) (level : Nat) (v : Byte) (ext : Bool) :
    OnlyRaises (loadDataSeg r sel level v ext) :=
  .ite (.update _) (.bind (readDesc_onlyRaises ..) fun _ => .bind (.check ..) fun _ => .bind (.check ..) fun _ =>
    .bind (openAccessed_onlyRaises _) fun _ => .bind (setAccessed_onlyRaises _) fun _ => .update _)

/-! ### The task switch (R645) -/

section
variable {α : Type}

theorem committing_onlyRaises {m : M α} (hm : OnlyRaises m) : OnlyRaises (committing m) := by
  refine ⟨fun {s _ _} h => ?_⟩
  unfold committing at h
  split at h
  · cases h
  · cases h; exact ⟨_, rfl⟩
  · next y u _ hs => cases h; exact hm.stop hs

theorem carryingExt_onlyRaises (ext : Bool) {m : M α} (hm : OnlyRaises m) : OnlyRaises (carryingExt ext m) := by
  refine ⟨fun {s _ _} h => ?_⟩
  unfold carryingExt at h
  split at h
  · cases h
  · split at h <;> cases h <;> exact ⟨_, rfl⟩
  · next y u _ hs => cases h; exact hm.stop hs

end

theorem taskLdt_onlyRaises (sel : Half) (ext : Bool) : OnlyRaises (taskLdt sel ext) :=
  .ite (.update _) (.bind (.check ..) fun _ => .bind (readDesc_onlyRaises ..) fun _ => .bind (.check ..) fun _ => .update _)

theorem taskCs_onlyRaises (sel : Half) (ext : Bool) : OnlyRaises (taskCs sel ext) :=
  .bind (.check ..) fun _ => .bind (readDesc_onlyRaises ..) fun _ => .bind (.check ..) fun _ => .bind (.check ..) fun _ =>
    .bind (openAccessed_onlyRaises _) fun _ => .bind (setAccessed_onlyRaises _) fun _ => .update _

theorem taskSegs_onlyRaises (t : TaskImage) (ext : Bool) : OnlyRaises (taskSegs t ext) :=
  .ite (.update _) (.bind (taskCs_onlyRaises ..) fun _ => .bind (loadStackSeg_onlyRaises ..) fun _ =>
    .bind (loadDataSeg_onlyRaises ..) fun _ => .bind (loadDataSeg_onlyRaises ..) fun _ =>
      .bind (loadDataSeg_onlyRaises ..) fun _ => loadDataSeg_onlyRaises ..)

theorem enterTask_onlyRaises (t : TaskImage) (nested ext : Bool) : OnlyRaises (enterTask t nested ext) :=
  .bind (.update _) fun _ => .bind (.update _) fun _ => .bind (.update _) fun _ => .bind (.update _) fun _ =>
    .bind (.update _) fun _ => .bind (taskLdt_onlyRaises ..) fun _ => .bind (taskSegs_onlyRaises ..) fun _ =>
      .bind (.doWhen _ (.update _)) fun _ => .bind (.update _) fun _ => .update _

theorem checkTss_onlyRaises (src : TaskSource) (sel : Half) (ext : Bool) : OnlyRaises (checkTss src sel ext) :=
  .bind .get fun _ => .bind (.check ..) fun _ => .bind (readDesc_onlyRaises ..) fun _ => .bind (.check ..) fun _ =>
    .bind (.check ..) fun _ => .bind (.check ..) fun _ => .pure _

theorem openSels_onlyRaises (base : Word) (l : List (Nat × Half)) : OnlyRaises (openSels base l) := by
  induction l with
  | nil => exact .pure _
  | cons x t ih => exact .bind (openSys_onlyRaises ..) fun _ => .bind ih fun _ => .pure _

theorem openOutgoing_onlyRaises (ret : Word) (img : Flags) : OnlyRaises (openOutgoing ret img) :=
  .bind .get fun _ => .ite
    (.bind (openSys_onlyRaises ..) fun _ => .bind (openSels_onlyRaises ..) fun _ => .pure _)
    (.bind (openSys_onlyRaises ..) fun _ => .pure _)

theorem halfReg_onlyRaises (bs : List Byte) (off : Nat) : OnlyRaises (halfReg bs off) := .bind (.drawBits _) fun _ => .pure _

theorem gprOf16_onlyRaises (bs : List Byte) : OnlyRaises (gprOf16 bs) :=
  .bind (halfReg_onlyRaises ..) fun _ => .bind (halfReg_onlyRaises ..) fun _ => .bind (halfReg_onlyRaises ..) fun _ =>
    .bind (halfReg_onlyRaises ..) fun _ => .bind (halfReg_onlyRaises ..) fun _ => .bind (halfReg_onlyRaises ..) fun _ =>
      .bind (halfReg_onlyRaises ..) fun _ => .bind (halfReg_onlyRaises ..) fun _ => .pure _

theorem taskImage_onlyRaises (big : Bool) (bs : List Byte) : OnlyRaises (taskImage big bs) :=
  .ite (.pure _) (.bind (gprOf16_onlyRaises bs) fun _ => .pure _)

theorem openWhen_onlyRaises (c : Bool) (la : Word) (n : Nat) : OnlyRaises (openWhen c la n) :=
  .ite (openSys_onlyRaises ..) (.pure _)

theorem taskSwitch_onlyRaises (src : TaskSource) (sel : Half) (ret : Word) (img : Flags) (ext : Bool) :
    OnlyRaises (taskSwitch src sel ret img ext) :=
  .bind (checkTss_onlyRaises ..) fun _ => .bind .get fun _ => .bind (openOutgoing_onlyRaises ..) fun _ =>
    .bind (openSys_onlyRaises ..) fun _ => .bind (.doWhen _ (.bind (sysDesc_onlyRaises _) fun _ => .pure _)) fun _ =>
    .bind (openWhen_onlyRaises ..) fun _ => .bind (openWhen_onlyRaises ..) fun _ => .bind (openWhen_onlyRaises ..) fun _ =>
    .bind (pokeAll_onlyRaises _) fun _ => .bind (.doWhen _ (lockedUpdate_onlyRaises ..)) fun _ =>
    .bind (.doWhen _ (lockedUpdate_onlyRaises ..)) fun _ => .bind (.doWhen _ (pokeAs_onlyRaises ..)) fun _ =>
    .bind (.update _) fun _ => .bind (.update _) fun _ => .bind (peek_onlyRaises _) fun _ =>
    .bind (taskImage_onlyRaises ..) fun _ => committing_onlyRaises (enterTask_onlyRaises ..)

/-! ### The delivery of an event (R620 to R626) -/

theorem deliverReal_onlyRaises (e : Event) : OnlyRaises (deliverReal e) :=
  .bind .get fun _ => .bind (.check ..) fun _ => .bind (openPushes_onlyRaises ..) fun _ => .bind (openSys_onlyRaises ..) fun _ =>
    .bind (commitPushes_onlyRaises _) fun _ => .bind (peek_onlyRaises _) fun _ => .bind (.update _) fun _ => .update _

theorem frameRoom_onlyRaises (r : SegReg) (code : Half) (its : List PushItem) :
    ∀ esp : Word, OnlyRaises (frameRoom r code esp its) := by
  induction its with
  | nil => exact fun _ => .pure _
  | cons it its ih => exact fun _ => .bind (.check ..) fun _ => ih _

theorem openFrame_onlyRaises (r : SegReg) (user : Bool) (its : List PushItem) :
    ∀ esp : Word, OnlyRaises (openFrame r user esp its) := by
  induction its with
  | nil => exact fun _ => .pure _
  | cons it its ih =>
    exact fun _ => .bind (.doWhen _ (alignCheck_onlyRaises ..)) fun _ => .bind (spanBytes_onlyRaises ..) fun _ =>
      .bind (noteData_onlyRaises ..) fun _ => .bind (ih _) fun _ => .pure _

theorem deliverSame_onlyRaises (e : Event) (g d : Desc) : OnlyRaises (deliverSame e g d) :=
  .bind .get fun _ => .bind (.check ..) fun _ => .bind (frameRoom_onlyRaises ..) fun _ => .bind (openFrame_onlyRaises ..) fun _ =>
    .bind (.check ..) fun _ => .bind (openAccessed_onlyRaises _) fun _ => .bind (commitPushes_onlyRaises _) fun _ =>
    .bind (setAccessed_onlyRaises _) fun _ => .bind (.update _) fun _ => .update _

theorem tssStack_onlyRaises (new : Nat) (ext : Bool) : OnlyRaises (tssStack new ext) :=
  .bind .get fun _ => .ite
    (.bind (.check ..) fun _ => .bind (sysVal_onlyRaises ..) fun _ => .bind (sysVal_onlyRaises ..) fun _ => .pure _)
    (.bind (.check ..) fun _ => .bind (sysVal_onlyRaises ..) fun _ => .bind (sysVal_onlyRaises ..) fun _ => .pure _)

theorem innerStack_onlyRaises (sel : Half) (new : Nat) (ext : Bool) : OnlyRaises (innerStack sel new ext) :=
  .bind (.check ..) fun _ => .bind (readDesc_onlyRaises ..) fun _ => .bind (.check ..) fun _ => .bind (.check ..) fun _ => .pure _

theorem deliverInner_onlyRaises (e : Event) (g d : Desc) (new : Nat) (extra : List PushItem) :
    OnlyRaises (deliverInner e g d new extra) :=
  .bind .get fun _ => .bind (tssStack_onlyRaises ..) fun _ => .bind (innerStack_onlyRaises ..) fun _ =>
    .bind (frameRoom_onlyRaises ..) fun _ => .bind (.check ..) fun _ => .bind (openFrame_onlyRaises ..) fun _ =>
    .bind (openAccessed_onlyRaises _) fun _ => .bind (openAccessed_onlyRaises _) fun _ => .bind (commitPushes_onlyRaises _) fun _ =>
    .bind (setAccessed_onlyRaises _) fun _ => .bind (setAccessed_onlyRaises _) fun _ => .bind (.update _) fun _ =>
    .bind (.update _) fun _ => .update _

theorem deliverV86_onlyRaises (e : Event) (g d : Desc) : OnlyRaises (deliverV86 e g d) :=
  .bind .get fun _ => .bind (.check ..) fun _ => .bind (deliverInner_onlyRaises ..) fun _ => .update _

theorem deliverTask_onlyRaises (e : Event) (g : Desc) : OnlyRaises (deliverTask e g) :=
  .bind (.check ..) fun _ => .bind (taskSwitch_onlyRaises ..) fun _ => .bind .get fun _ => committing_onlyRaises
    (.bind (carryingExt_onlyRaises _ (pushItems_onlyRaises _)) fun _ => .check ..)

theorem deliverIdt_onlyRaises (e : Event) : OnlyRaises (deliverIdt e) :=
  .bind .get fun _ => .bind (.check ..) fun _ => .bind (sysDesc_onlyRaises _) fun _ => .bind (.check ..) fun _ =>
    .bind (.check ..) fun _ => .bind (.check ..) fun _ => .ite (deliverTask_onlyRaises ..)
      (.bind (.check ..) fun _ => .bind (readDesc_onlyRaises ..) fun _ => .bind (.check ..) fun _ => .bind (.check ..) fun _ =>
        .ite (deliverV86_onlyRaises ..) (.ite (deliverInner_onlyRaises ..) (deliverSame_onlyRaises ..)))

/-- A delivery is done or raises a second exception. -/
theorem deliver_onlyRaises (e : Event) : OnlyRaises (deliver e) :=
  .bind .get fun _ => .ite (deliverReal_onlyRaises e) (deliverIdt_onlyRaises e)

/-- The chain of second exceptions ends in a next state: by induction on its fuel, whose end is Shutdown (R628, R630). -/
theorem takeEvent_next (fuel : Nat) : ∀ (e : Event) (s : State), ∃ t, takeEvent fuel e s = .next t := by
  induction fuel with
  | zero => exact fun _ s => ⟨enterShutdown s, rfl⟩
  | succ fuel ih =>
    intro e s
    unfold takeEvent
    cases hd : deliver e s with
    | ok a u => exact ⟨_, rfl⟩
    | error x u =>
      obtain ⟨y, rfl⟩ := (deliver_onlyRaises e).stop hd
      dsimp only
      cases second e.cls (excClass y.vec) with
      | deliverIt => exact ih _ _
      | doubleFault => exact ih _ _
      | shutdown => exact ⟨_, rfl⟩

theorem takeException_next (x : Exc) (s u : State) : ∃ t, takeException x s u = .next t := takeEvent_next 8 _ _

theorem exec_illegal0FFF (p : Pfx) (s : State) :
    exec (.illegal0FFF p) s = takeException (Exc.fault 6 none) s s.advance := rfl

end Sys2Proof.Machine

open Sys2Proof Sys2Proof.Machine

/-- Settles O32: no part of a delivery stops with anything but an exception, and the chain of those is finite. -/
theorem exceptionsAreDelivered : Obligations.ExceptionsAreDelivered := by
  unfold Obligations.ExceptionsAreDelivered
  exact ⟨fun p s => ⟨exec_illegal0FFF p s, exec_illegal0FFF p s ▸ takeException_next _ _ _⟩, takeException_next⟩

end

section
/-! PROOFS. O45: CMPXCHG8B moves its eight bytes as two halves, which together are one run of bytes; an unequal comparison writes the
bytes back that it read (R303). -/
namespace Sys2Proof

/-! ### The halves of a run of bytes -/

theorem giveLe_add (a b : Nat) : ∀ v : Nat, giveLe (a + b) v = giveLe a v ++ giveLe b (v / 256 ^ a) := by
  induction a with
  | zero => intro v; simp [giveLe]
  | succ a ih =>
    intro v
    rw [show a + 1 + b = (a + b) + 1 by omega, giveLe, giveLe, ih, Nat.div_div_eq_div_mul, List.cons_append, Nat.pow_succ']

/-- Bytes above those that are given do not matter. -/
theorem giveLe_mod (n : Nat) : ∀ v : Nat, giveLe n (v % 256 ^ n) = giveLe n v := by
  induction n with
  | zero => intro v; rfl
  | succ n ih =>
    intro v
    have hlow : v % 256 ^ (n + 1) % 256 = v % 256 := Nat.mod_mod_of_dvd _ ⟨256 ^ n, Nat.pow_succ'⟩
    have hhigh : v % 256 ^ (n + 1) / 256 = v / 256 % 256 ^ n := by rw [Nat.pow_succ', Nat.mod_mul_right_div_self]
    rw [giveLe, giveLe, hhigh, ih]
    congr 1
    exact BitVec.eq_of_toNat_eq (by simp [hlow])

end Sys2Proof

namespace Sys2Proof.Machine

open Sys2Proof

theorem giveLe_leNat (bs : List Byte) : giveLe bs.length (leNat bs) = bs := by
  induction bs with
  | nil => rfl
  | cons b t ih =>
    have hb := b.isLt
    rw [List.length_cons, giveLe, leNat, show (b.toNat + 256 * leNat t) / 256 = leNat t by omega, ih]
    congr 1
    exact BitVec.eq_of_toNat_eq (by rw [BitVec.toNat_ofNat]; omega)

theorem leNat_lt (bs : List Byte) : leNat bs < 256 ^ bs.length := by
  rw [← giveLe_leNat bs, leNat_giveLe, giveLe_leNat]
  exact Nat.mod_lt _ (Nat.pow_pos (by decide))

/-- The bytes of the number that bytes spell are those bytes. -/
theorem toLe_ofLe {n : Nat} {bs : List Byte} (h : bs.length = n) : toLe n (ofLe (8 * n) bs) = bs := by
  subst h
  have hlt : leNat bs < 2 ^ (8 * bs.length) := by
    rw [Nat.pow_mul]
    exact leNat_lt bs
  rw [toLe, ofLe, BitVec.toNat_ofNat, Nat.mod_eq_of_lt hlt, giveLe_leNat]

/-- The bytes of a quadword are those of its low half, then those of its high half (R101). -/
theorem toLe_halves (v : Qword) : toLe 4 (v.extractLsb' 0 32) ++ toLe 4 (v.extractLsb' 32 32) = toLe 8 v := by
  have h := v.isLt
  have hlow : giveLe 4 (v.toNat % 2 ^ 32) = giveLe 4 v.toNat := giveLe_mod 4 v.toNat
  have hhigh : v.toNat / 2 ^ 32 % 2 ^ 32 = v.toNat / 256 ^ 4 := by omega
  simp only [toLe, BitVec.extractLsb'_toNat, Nat.shiftRight_eq_div_pow, Nat.pow_zero, Nat.div_one]
  rw [hlow, hhigh]
  exact (giveLe_add 4 4 v.toNat).symm

theorem toLe_append (hi lo : Word) : toLe 8 (hi ++ lo) = toLe 4 lo ++ toLe 4 hi := by
  have hlow : (hi ++ lo).extractLsb' 0 32 = lo := by
    rw [BitVec.extractLsb'_append_eq_of_add_le (by decide), BitVec.extractLsb'_eq_self]
  have hhigh : (hi ++ lo).extractLsb' 32 32 = hi := by
    rw [BitVec.extractLsb'_append_eq_of_le (by decide), BitVec.extractLsb'_eq_self]
  calc toLe 8 (hi ++ lo) = toLe 4 ((hi ++ lo).extractLsb' 0 32) ++ toLe 4 ((hi ++ lo).extractLsb' 32 32) :=
        (toLe_halves (hi ++ lo)).symm
    _ = toLe 4 lo ++ toLe 4 hi := by rw [hlow, hhigh]

/-! ### Two halves of one store -/

/-- Writing the two halves of a run of bytes is writing the run. -/
theorem writeAt_halves (m : Memory) (bs : List Byt) (vs ws : List Byte) (h : (bs.take vs.length).length = vs.length) :
    writeAt (writeAt m ((bs.take vs.length).zip vs)) ((bs.drop vs.length).zip ws) = writeAt m (bs.zip (vs ++ ws)) := by
  rw [writeAt, writeAt, writeAt, ← List.foldl_append, ← List.zip_append h, List.take_append_drop]

theorem stored_sameBytes {s t : State} {seg : Seg} {off : Word} {n : Nat} (h : Stored s t seg off (s.bytes seg off n)) :
    SameBytes s t := by
  obtain ⟨hin, hout⟩ := h
  rw [bytes_length] at hin hout
  intro a
  by_cases ha : ∃ k, k < n ∧ a = s.byteAddr seg off k
  · obtain ⟨k, hk, rfl⟩ := ha
    rw [hin k hk]
    simp [State.bytes, List.getD_eq_getElem?_getD, hk]
  · exact hout a fun k hk e => ha ⟨k, hk, e⟩

/-! ### The instruction -/

/-- The comparison looks at the registers alone, and changes registers and flags alone. -/
theorem cmpxchg8b_cached (old : Qword) (s : State) (c : Caches) (d : Nat) :
    cmpxchg8b old ((s.setCache c).setDraws d) =
      ((cmpxchg8b old s).1, ((cmpxchg8b old s).2.setCache c).setDraws d) := by
  unfold cmpxchg8b
  split
  · rw [if_pos ‹_›]; rfl
  · rw [if_neg ‹_›]; rfl

/-- The reads, locked or not: the eight bytes, with the caches alone disturbed (R107, R109). -/
theorem peekHalves_quiet (lock : Bool) (bs : List Byt) {s : State} (h : s.cache.foreign = false) :
    ∃ t u v, Quiet s v ∧ doWhen lock (update (evictLines bs)) s = .ok () t ∧
      peekAs lock (bs.take 4) t = .ok (s.bytesAt (bs.take 4)) u ∧
      peekAs lock (bs.drop 4) u = .ok (s.bytesAt (bs.drop 4)) v := by
  obtain ⟨t, ht, et⟩ : ∃ t, Quiet s t ∧ doWhen lock (update (evictLines bs)) s = .ok () t := by
    cases lock with
    | false => exact ⟨s, Quiet.refl h, rfl⟩
    | true => exact ⟨_, evictLines_quiet bs h, rfl⟩
  obtain ⟨u, hu, eu⟩ := peekAs_quiet lock (bs.take 4) ht.foreign
  obtain ⟨v, hv, ev⟩ := peekAs_quiet lock (bs.drop 4) hu.foreign
  refine ⟨t, u, v, (ht.trans hu).trans hv, et, ?_, ?_⟩
  · rw [eu, State.bytesAt, ht.mem]; rfl
  · rw [ev, State.bytesAt, hu.mem, ht.mem]; rfl

theorem pokeHalves_eq (lock : Bool) {bs : List Byt} {vs ws : List Byte} {s : State} (hr : ramOnly s.plat = true)
    (hvs : vs.length = 4) (hbs : bs.length = 8) :
    ∃ c, (pokeAs lock (bs.take 4) vs >>= fun _ => pokeAs lock (bs.drop 4) ws) s =
      .ok () ((s.setMem (writeAt s.mem (bs.zip (vs ++ ws)))).setCache c) := by
  obtain ⟨c, ec, -⟩ := pokeAs_eq lock (bs.take 4) vs hr
  obtain ⟨c', ec', -⟩ :=
    pokeAs_eq lock (bs.drop 4) ws (s := (s.setMem (writeAt s.mem ((bs.take 4).zip vs))).setCache c) hr
  refine ⟨c', ?_⟩
  rw [M.bind_ok ec, ec', State.setCache_mem, State.setMem_mem, ← hvs, writeAt_halves _ _ _ _ (by simp [hvs, hbs])]
  rfl

theorem cmpxchg8b_mem_plat (old : Qword) (s : State) :
    (cmpxchg8b old s).2.mem = s.mem ∧ (cmpxchg8b old s).2.plat = s.plat := by
  unfold cmpxchg8b
  split <;> exact ⟨rfl, rfl⟩

/-- The instruction writes the eight bytes that the comparison gives, and otherwise does what it does to registers and flags. -/
theorem cmpxchg8bOp_flat {p : Pfx} {m : MemOp} {s : State} {r : Qword × State} (hf : s.flat = true)
    (h : s.may (segFor p m) (effAddr m s.gpr) 8 8 true = true)
    (hr : cmpxchg8b (s.value (segFor p m) (effAddr m s.gpr) 8 64) s = r) :
    ∃ c d, cmpxchg8bOp p m s = .ok ()
      (((r.2.setMem (s.stored (segFor p m) (effAddr m s.gpr) (toLe 8 r.1))).setCache c).setDraws d) := by
  have hlen := plainBytes_length s (segFor p m) (effAddr m s.gpr) 8
  have hstored : s.stored (segFor p m) (effAddr m s.gpr) (toLe 8 r.1) =
      writeAt s.mem ((s.plainBytes (segFor p m) (effAddr m s.gpr) 8).zip (toLe 8 r.1)) := by
    rw [State.stored, toLe_length]
  have hbytes := bytesAt_plain s (segFor p m) (effAddr m s.gpr) 8
  have hopen := openRmw_flat hf h
  generalize s.plainBytes (segFor p m) (effAddr m s.gpr) 8 = bs at hlen hstored hbytes hopen
  obtain ⟨t, u, v, ⟨c, d, rfl, -⟩, et, eu, ev⟩ := peekHalves_quiet p.lock bs (State.flat_foreign hf)
  have hold : (ofLe 64 (s.bytesAt (bs.take 4) ++ s.bytesAt (bs.drop 4)) : Qword) =
      s.value (segFor p m) (effAddr m s.gpr) 8 64 := by
    rw [State.bytesAt, State.bytesAt, ← List.map_append, List.take_append_drop]
    exact congrArg (ofLe 64) hbytes
  have hkeep := cmpxchg8b_mem_plat (s.value (segFor p m) (effAddr m s.gpr) 8 64) s
  rw [hr] at hkeep
  obtain ⟨c', e'⟩ := pokeHalves_eq p.lock (bs := bs) (vs := toLe 4 (r.1.extractLsb' 0 32))
    (ws := toLe 4 (r.1.extractLsb' 32 32)) (s := (r.2.setCache c).setDraws d)
    (by rw [State.setDraws_plat, State.setCache_plat, hkeep.2]; exact State.flat_ram hf) (toLe_length ..) hlen
  refine ⟨c', d, ?_⟩
  unfold cmpxchg8bOp
  rw [M.get_bind, M.bind_ok hopen, M.bind_ok et, M.bind_ok eu, M.bind_ok ev, M.get_bind, hold, cmpxchg8b_cached, hr]
  dsimp only
  rw [M.set_bind, e', toLe_halves, State.setDraws_mem, State.setCache_mem, hkeep.1, hstored]
  rfl

/-- What the comparison gives when it finds EDX:EAX: ECX:EBX to store, and ZF set. -/
theorem cmpxchg8b_equal {old : Qword} {s : State} (h : old = s.gpr.edx ++ s.gpr.eax) :
    cmpxchg8b old s = (s.gpr.ecx ++ s.gpr.ebx, s.setFlags { s.flags with zf := true }) := if_pos h

/-- What it gives when it finds something else: the old bytes to store, and EDX:EAX holds them, with ZF clear. -/
theorem cmpxchg8b_unequal {old : Qword} {s : State} (h : old ≠ s.gpr.edx ++ s.gpr.eax) :
    cmpxchg8b old s = (old, (s.setGpr (pair64 s.gpr old)).setFlags { s.flags with zf := false }) := if_neg h

end Sys2Proof.Machine

open Sys2Proof Sys2Proof.Machine

/-- Settles O45: the two outcomes of the comparison, each one store of eight bytes. -/
theorem compareExchangeResult : Obligations.CompareExchangeResult := by
  unfold Obligations.CompareExchangeResult
  intro p m s hf hm v
  by_cases hv : v = s.gpr.edx ++ s.gpr.eax
  · obtain ⟨c, d, e⟩ := cmpxchg8bOp_flat (s := s.advance) hf hm (cmpxchg8b_equal hv)
    refine ⟨_, run_ok e, frame_of ⟨_, _, _, _, _, rfl⟩, ?_, ?_⟩
    · simp only [hv, decide_true]; rfl
    · rw [if_pos hv]
      refine ⟨rfl, stored_spec s _ _ _ _ (by simp) ?_⟩
      rw [← toLe_append]; rfl
  · obtain ⟨c, d, e⟩ := cmpxchg8bOp_flat (s := s.advance) hf hm (cmpxchg8b_unequal hv)
    refine ⟨_, run_ok e, frame_of ⟨_, _, _, _, _, rfl⟩, ?_, ?_⟩
    · simp only [hv, decide_false]; rfl
    · rw [if_neg hv]
      refine ⟨rfl, stored_sameBytes (n := 8) (stored_spec s _ (segFor p m) (effAddr m s.gpr) _ (by simp [State.bytes]) ?_)⟩
      rw [← toLe_ofLe (bytes_length s (segFor p m) (effAddr m s.gpr) 8)]
      rfl

end

section
/-! PROOFS. O43 and O44: each register number has one line here for what is read and one for what is written; a write to an array leaves
everything but memory, the caches and the count of free values alone (R300, R306 to R308, R842). -/
namespace Sys2Proof.Machine

open Sys2Proof

/-! ### Level 0 -/

theorem privileged_ok {s : State} (h : s.level = 0) : privileged s = .ok () s := by
  unfold privileged
  rw [M.get_bind, h]
  rfl

theorem privileged_denied {s : State} (h : s.level ≠ 0) : privileged s = .error (.exc (Exc.fault vGP (some 0))) s := by
  unfold privileged
  rw [M.get_bind, show (s.level == 0) = false from beq_false_of_ne h]
  rfl

/-- RDMSR and WRMSR at level 0: what the register does, then the serialization (R151). -/
theorem run_serialized {m : M Unit} {s t : State} (hl : s.level = 0) (h : m s.advance = .ok () t) :
    run (privileged >>= fun _ => m >>= fun _ => update serialize) s = .next { t with cache := afterSerial t.cache } := by
  refine run_ok ?_
  rw [M.bind_ok (privileged_ok (s := s.advance) hl), M.bind_ok h]
  rfl

theorem run_serialized_error {m : M Unit} {s t : State} {x : Stop} (hl : s.level = 0) (h : m s.advance = .error x t) :
    (privileged >>= fun _ => m >>= fun _ => update serialize) s.advance = .error x t := by
  rw [M.bind_ok (privileged_ok (s := s.advance) hl), M.bind_error h]

/-! ### Reading -/

theorem exec_rdtsc (p : Pfx) (s : State) : exec (.rdtsc p) s = run rdtscOp s := rfl
theorem exec_rdmsr (p : Pfx) (s : State) :
    exec (.rdmsr p) s = run (privileged >>= fun _ => readMsr >>= fun _ => update serialize) s := rfl
theorem exec_wrmsr (p : Pfx) (s : State) :
    exec (.wrmsr p) s = run (privileged >>= fun _ => writeMsr >>= fun _ => update serialize) s := rfl

theorem rdtscOp_run (s : State) : rdtscOp s =
    if s.tsd = true ∧ s.level ≠ 0 then .error (.exc (Exc.fault vGP (some 0))) s
    else .ok () { s with gpr := pair64 s.gpr s.msr.tsc } := by
  unfold rdtscOp
  rw [M.get_bind]
  split
  · next h => rw [show (!(s.tsd && s.level != 0)) = false by simp [h]]; rfl
  · next h => rw [show (!(s.tsd && s.level != 0)) = true by cases ht : s.tsd <;> simp_all]; rfl

/-- The low `n` bits of a quadword, as a mask takes them (R307). -/
theorem extract_low_eq_and (v : Qword) (n : Nat) (h : n ≤ 64) :
    (v.extractLsb' 0 n).setWidth 64 = v &&& BitVec.ofNat 64 (2 ^ n - 1) := by
  apply BitVec.eq_of_toNat_eq
  have hv : v.toNat % 2 ^ n < 2 ^ 64 := Nat.lt_of_le_of_lt (Nat.mod_le ..) v.isLt
  have hn : 2 ^ n - 1 < 2 ^ 64 := by
    have := Nat.pow_le_pow_right (n := 2) (by decide) h
    omega
  rw [BitVec.toNat_setWidth, BitVec.extractLsb'_toNat, Nat.shiftRight_zero, Nat.mod_eq_of_lt hv, BitVec.toNat_and,
    BitVec.toNat_ofNat, Nat.mod_eq_of_lt hn, Nat.and_two_pow_sub_one_eq_mod]

/-- A register with a value is read into EDX:EAX; CHK of MCTR goes (R307). -/
theorem readMsr_value {s : State} {v : Qword} (h : msrValue s.msr s.gpr.ecx = some v) :
    readMsr s = .ok () { s with
      gpr := pair64 s.gpr v
      msr := if s.gpr.ecx = 1 then { s.msr with mctr := s.msr.mctr &&& 0xFFFFFFFFFFFFFFFE } else s.msr } := by
  have hmcar : (s.msr.mcar.extractLsb' 0 32).setWidth 64 = s.msr.mcar &&& 0xFFFFFFFF := extract_low_eq_and _ 32 (by decide)
  have hmctr : (s.msr.mctr.extractLsb' 0 5).setWidth 64 = s.msr.mctr &&& 0x1F := extract_low_eq_and _ 5 (by decide)
  have hhwcr : (s.msr.hwcr.extractLsb' 0 8).setWidth 64 = s.msr.hwcr &&& 0xFF := extract_low_eq_and _ 8 (by decide)
  unfold readMsr
  rw [M.get_bind]
  unfold msrValue at h
  split at h
  · next hn => cases h; rw [hn, ← hmcar]; rfl
  · split at h
    · next hn => cases h; rw [hn, ← hmctr]; rfl
    · split at h
      · next hn => cases h; rw [hn]; rfl
      · split at h
        · next hn => cases h; rw [hn, ← hhwcr]; rfl
        · cases h

/-- The array access register is read into EAX; a free value may be drawn for it (R307, R841). -/
theorem readMsr_array {s : State} (h : s.gpr.ecx = 0x82) :
    ∃ v d, readMsr s = .ok () ((s.putReg .eax v).setDraws d) := by
  have hread : ∃ v d, aarRead s.gpr.edx s = .ok v (s.setDraws d) := by
    unfold aarRead
    rw [M.get_bind]
    generalize (if s.gpr.edx.extractLsb' 0 8 = 0xE0 then aarLine s s.gpr.edx else none) = l
    cases l with
    | none => exact ⟨_, _, rfl⟩
    | some l => exact ⟨_, s.draws, rfl⟩
  obtain ⟨v, d, hv⟩ := hread
  refine ⟨v, d, ?_⟩
  unfold readMsr
  rw [M.get_bind, h]
  exact M.bind_ok hv

/-- A number of no register. -/
def noMsr (n : Word) : Prop := n ≠ 0 ∧ n ≠ 1 ∧ n ≠ 0x10 ∧ n ≠ 0x83 ∧ n ≠ 0x82

theorem noMsr_of_msrValue {m : Msrs} {n : Word} (h : msrValue m n = none) (ha : n ≠ 0x82) : noMsr n := by
  unfold msrValue at h
  grind [noMsr]

theorem noMsr_of_msrStore {m : Msrs} {n hi lo : Word} (h : msrStore m n hi lo = none) (ha : n ≠ 0x82) : noMsr n := by
  unfold msrStore at h
  grind [noMsr]

theorem readMsr_none {s : State} (h : noMsr s.gpr.ecx) : readMsr s = .error (.exc (Exc.fault vGP (some 0))) s := by
  obtain ⟨h0, h1, h10, h83, h82⟩ := h
  unfold readMsr
  rw [M.get_bind]
  refine congrFun (g := (gp0 : M Unit)) ?_ s
  split
  · next hn => exact absurd (BitVec.eq_of_toNat_eq hn) h0
  · next hn => exact absurd (BitVec.eq_of_toNat_eq hn) h1
  · next hn => exact absurd (BitVec.eq_of_toNat_eq hn) h10
  · next hn => exact absurd (BitVec.eq_of_toNat_eq hn) h82
  · next hn => exact absurd (BitVec.eq_of_toNat_eq hn) h83
  · rfl

/-! ### CPUID -/

theorem exec_cpuid (p : Pfx) (s : State) : exec (.cpuid p) s = .next (serialize s.advance.cpuid) := rfl

/-- Family 5, the model and the stepping stand in fields of their own (R300). -/
theorem toNat_cpuidSignature (p : Platform) :
    (cpuidSignature p).toNat = 0x500 + 16 * p.model.toNat + p.stepping.toNat := by
  have hm := p.model.isLt
  have hs := p.stepping.isLt
  unfold cpuidSignature
  generalize p.model = m at *
  generalize p.stepping = x at *
  revert m x
  decide

/-- Whatever the function, CPUID writes four registers, and may draw free values for them; functions 0 and 1 are given (R300). -/
theorem cpuid_spec (s : State) : ∃ a b c d n, s.cpuid = (s.putCpuid a b c d).setDraws n ∧
    (s.gpr.eax = 0 → a = 1 ∧ b = 0x68747541 ∧ c = 0x444D4163 ∧ d = 0x69746E65) ∧
    (s.gpr.eax = 1 → a = cpuidSignature s.plat ∧ b = 0 ∧ c = 0 ∧ d = 0x3BF) := by
  unfold State.cpuid
  split
  · next h0 => exact ⟨_, _, _, _, s.draws, rfl, fun _ => ⟨rfl, rfl, rfl, rfl⟩, fun h1 => absurd (h0.symm.trans h1) (by decide)⟩
  · next h0 =>
    split
    · exact ⟨_, _, _, _, s.draws, rfl, fun h => absurd h h0, fun _ => ⟨rfl, rfl, rfl, rfl⟩⟩
    · next h1 => exact ⟨_, _, _, _, _, rfl, fun h => absurd h h0, fun h => absurd h h1⟩

/-! ### Writing -/

theorem writeMsr_value {s : State} {m : Msrs} (h : msrStore s.msr s.gpr.ecx s.gpr.edx s.gpr.eax = some m) :
    writeMsr s = .ok () { s with msr := m } := by
  unfold writeMsr
  rw [M.get_bind]
  unfold msrStore at h
  split at h
  · next hn => cases h; rw [hn]; rfl
  · split at h
    · next hn => cases h; rw [hn]; rfl
    · split at h
      · next hn => cases h; rw [hn]; rfl
      · split at h
        · next hn => cases h; rw [hn]; rfl
        · cases h

theorem writeMsr_none {s : State} (h : noMsr s.gpr.ecx) : writeMsr s = .error (.exc (Exc.fault vGP (some 0))) s := by
  obtain ⟨h0, h1, h10, h83, h82⟩ := h
  unfold writeMsr
  rw [M.get_bind]
  refine congrFun (g := (gp0 : M Unit)) ?_ s
  dsimp only
  split
  · next hn => exact absurd (BitVec.eq_of_toNat_eq hn) h0
  · next hn => exact absurd (BitVec.eq_of_toNat_eq hn) h1
  · next hn => exact absurd (BitVec.eq_of_toNat_eq hn) h10
  · next hn => exact absurd (BitVec.eq_of_toNat_eq hn) h82
  · next hn => exact absurd (BitVec.eq_of_toNat_eq hn) h83
  · rfl

theorem writeMsr_array {s : State} (h : s.gpr.ecx = 0x82) : writeMsr s = aarWrite s.gpr.edx s := by
  unfold writeMsr
  rw [M.get_bind, h]
  rfl

/-! ### The arrays -/

/-- A state that differs in memory, the caches and the count of free values alone; in memory only where `c` allows it. -/
def Scrambled (c : Prop) (s t : State) : Prop :=
  t = { s with mem := t.mem, cache := t.cache, draws := t.draws } ∧ (¬ c → t.mem = s.mem)

theorem Scrambled.trans {c : Prop} {s t u : State} (h : Scrambled c s t) (k : Scrambled c t u) : Scrambled c s u := by
  obtain ⟨ht, hm⟩ := h
  obtain ⟨hu, hn⟩ := k
  refine ⟨?_, fun hc => (hn hc).trans (hm hc)⟩
  rw [hu, ht]

theorem Scrambled.foldl {α : Type} {c : Prop} {f : State → α → State} (hf : ∀ s a, Scrambled c s (f s a)) (as : List α) :
    ∀ s, Scrambled c s (as.foldl f s) := by
  induction as with
  | nil => exact fun s => ⟨rfl, fun _ => rfl⟩
  | cons a as ih => exact fun s => (hf s a).trans (ih _)

theorem Scrambled.mono {c d : Prop} {s t : State} (h : Scrambled c s t) (hcd : c → d) : Scrambled d s t :=
  ⟨h.1, fun hd => h.2 fun hc => hd (hcd hc)⟩

theorem scrambleSlot_scrambled (s : State) (i : Nat) : Scrambled True s (scrambleSlot s i) := by
  unfold scrambleSlot
  dsimp only
  split <;> exact ⟨rfl, fun h => absurd trivial h⟩

theorem scrambleData_scrambled (s : State) : Scrambled True s (scrambleData s) := by
  unfold scrambleData
  exact .trans ⟨rfl, fun h => absurd trivial h⟩ (.foldl scrambleSlot_scrambled _ _)

theorem scrambleISlot_scrambled (s : State) (i : Nat) : Scrambled False s (scrambleISlot s i) := by
  unfold scrambleISlot
  dsimp only
  split <;> exact ⟨rfl, fun _ => rfl⟩

theorem scrambleCode_scrambled (s : State) : Scrambled False s (scrambleCode s) := by
  unfold scrambleCode
  refine .trans ?_ (.foldl scrambleISlot_scrambled _ _)
  exact ⟨rfl, fun _ => rfl⟩

theorem scrambleBp_scrambled (s : State) : Scrambled False s (scrambleBp s) := ⟨rfl, fun _ => rfl⟩

theorem scrambleEntry_scrambled (big : Bool) (s : State) (i : Nat) : Scrambled False s (scrambleEntry big s i) :=
  ⟨rfl, fun _ => rfl⟩

theorem scrambleTlb_scrambled (big : Bool) (s : State) : Scrambled False s (scrambleTlb big s) := by
  unfold scrambleTlb
  refine .trans ?_ (.foldl (scrambleEntry_scrambled big) _ _)
  exact ⟨rfl, fun _ => rfl⟩

/-- The identifier of a data-cache array (R843). -/
abbrev dataArray (id : Nat) : Prop := id = 0xE0 ∨ id = 0xE1 ∨ id = 0xEC

/-- The identifier of an array (R843). -/
abbrev namedArray (id : Nat) : Prop := 0xE0 ≤ id ∧ id ≤ 0xED ∧ id ≠ 0xE2 ∧ id ≠ 0xE3

/-- A write to an array scrambles what holds it; one to no array is refused (R842, U17). -/
theorem aarWrite_cases (ptr : Word) :
    (namedArray (ptr.toNat % 256) ∧ ∃ f, aarWrite ptr = update f ∧ ∀ s, Scrambled (dataArray (ptr.toNat % 256)) s (f s)) ∨
      (¬ namedArray (ptr.toNat % 256) ∧ aarWrite ptr = refuse .arrayWrite) := by
  have hid : (ptr.extractLsb' 0 8).toNat = ptr.toNat % 256 := by simp
  have hdata {n : Nat} (hn : dataArray n) (s : State) := (scrambleData_scrambled s).mono fun _ => hn
  have hcode {n : Nat} (s : State) : Scrambled (dataArray n) s _ := (scrambleCode_scrambled s).mono False.elim
  have htlb (big : Bool) {n : Nat} (s : State) : Scrambled (dataArray n) s _ := (scrambleTlb_scrambled big s).mono False.elim
  unfold aarWrite
  rw [hid]
  generalize ptr.toNat % 256 = n
  split
  case h_1 => exact .inl ⟨by decide, _, rfl, hdata (.inl rfl)⟩
  case h_2 => exact .inl ⟨by decide, _, rfl, hdata (.inr (.inl rfl))⟩
  case h_3 => exact .inl ⟨by decide, _, rfl, hdata (.inr (.inr rfl))⟩
  case h_4 | h_5 | h_6 | h_7 => exact .inl ⟨by decide, _, rfl, hcode⟩
  case h_8 => exact .inl ⟨by decide, _, rfl, fun s => (scrambleBp_scrambled s).mono False.elim⟩
  case h_9 | h_10 => exact .inl ⟨by decide, _, rfl, htlb false⟩
  case h_11 | h_12 => exact .inl ⟨by decide, _, rfl, htlb true⟩
  case h_13 => exact .inr ⟨by simp only [namedArray]; grind, rfl⟩

end Sys2Proof.Machine

open Sys2Proof Sys2Proof.Machine

/-- Settles O43, register by register. -/
theorem readModelSpecific : Obligations.ReadModelSpecific := by
  unfold Obligations.ReadModelSpecific
  intro p s
  refine ⟨?_, fun hl => ⟨fun v hv => ?_, fun h82 => ?_, fun hnone h82 => ?_⟩, ?_⟩
  · rw [exec_rdtsc]
    have hrun := rdtscOp_run s.advance
    split
    · next h => exact run_exc (hrun.trans (if_pos h))
    · next h => exact run_ok (hrun.trans (if_neg h))
  · rw [exec_rdmsr, run_serialized hl (readMsr_value (s := s.advance) hv)]
    rfl
  · obtain ⟨v, d, hv⟩ := readMsr_array (s := s.advance) h82
    exact ⟨_, (exec_rdmsr p s).trans (run_serialized hl hv), rfl⟩
  · rw [exec_rdmsr]
    exact run_exc (run_serialized_error hl (readMsr_none (s := s.advance) (noMsr_of_msrValue hnone h82)))
  · obtain ⟨a, b, c, d, n, hc, h0, h1⟩ := cpuid_spec s.advance
    refine ⟨_, a, b, c, d, exec_cpuid p s, by rw [hc]; rfl, h0, fun h => ?_⟩
    obtain ⟨rfl, hbcd⟩ := h1 h
    exact ⟨toNat_cpuidSignature _, hbcd⟩

/-- Settles O44, register by register, and for the array access register by what holds the array. -/
theorem writeModelSpecific : Obligations.WriteModelSpecific := by
  unfold Obligations.WriteModelSpecific
  intro p s hl
  refine ⟨fun m hm => ?_, fun hnone h82 => ?_, fun h82 => ?_⟩
  · rw [exec_wrmsr, run_serialized hl (writeMsr_value (s := s.advance) hm)]
    rfl
  · rw [exec_wrmsr]
    exact run_exc (run_serialized_error hl (writeMsr_none (s := s.advance) (noMsr_of_msrStore hnone h82)))
  · have hwrite := writeMsr_array (s := s.advance) h82
    dsimp only
    rcases aarWrite_cases s.gpr.edx with ⟨hid, f, hf, hs⟩ | ⟨hid, hf⟩
    · obtain ⟨ht, hmem⟩ := hs s.advance
      rw [if_pos hid]
      refine ⟨_, (exec_wrmsr p s).trans (run_serialized hl (hwrite.trans (congrFun hf _))), ?_, fun h0 h1 hc => hmem ?_⟩
      · exact congrArg (fun u : State => { u with cache := afterSerial u.cache }) ht
      · rintro (h | h | h)
        · exact h0 h
        · exact h1 h
        · exact hc h
    · rw [if_neg hid, exec_wrmsr]
      exact run_refused (run_serialized_error hl (hwrite.trans (congrFun hf _)))

end

section
/-! PROOFS. O46: RSM reads its save area as one run of physical bytes, whose slots are those of the statement; what it rejects and what it
restores are compared slot by slot, and each way to resume changes a part of the restored state that the area does not fill (R312, R708,
R709, R720 to R722). -/
namespace Sys2Proof.Machine

open Sys2Proof

/-! ### Fields of a list of bytes -/

/-- The number in a field, by its bytes; beyond the list they are zero. -/
theorem leNat_field (bs : List Byte) (n : Nat) : ∀ off : Nat,
    leNat ((bs.drop off).take n) = leNat ((List.range n).map fun j => bs.getD (off + j) 0) := by
  induction n with
  | zero => intro off; rfl
  | succ n ih =>
    intro off
    have hshift : ((List.range (n + 1)).map fun j => bs.getD (off + j) 0) =
        bs.getD off 0 :: (List.range n).map fun j => bs.getD (off + 1 + j) 0 := by
      simp [List.range_succ_eq_map, Function.comp_def, Nat.add_assoc, Nat.add_comm 1]
    rw [hshift, leNat, ← ih]
    by_cases h : off < bs.length
    · rw [List.drop_eq_getElem_cons h, List.take_succ_cons, leNat, List.getD_eq_getElem?_getD, List.getElem?_eq_getElem h,
        Option.getD_some]
    · have hnil {k : Nat} (hk : off ≤ k) : bs.drop k = [] := List.drop_eq_nil_of_le (by omega)
      rw [hnil (Nat.le_refl _), hnil (Nat.le_succ _), List.take_nil, List.take_nil, List.getD_eq_getElem?_getD,
        List.getElem?_eq_none (by omega)]
      rfl

/-- Lists that agree on the bytes of a field agree on the field. -/
theorem saved_congr {bs cs : List Byte} {off n : Nat}
    (h : ∀ j, j < n → bs.getD (off - 0xFE00 + j) 0 = cs.getD (off - 0xFE00 + j) 0) : saved bs off n = saved cs off n := by
  unfold saved field ofLe
  rw [leNat_field, leNat_field, List.map_congr_left fun j hj => h j (List.mem_range.1 hj)]

/-! ### The bytes of the save area -/

/-- The save area as memory holds it. -/
def State.area (s : State) : List Byte := s.bytesAt (saveArea s s.smm.base)

theorem area_getD {s : State} {k : Nat} (h : k < 512) :
    s.area.getD k 0 = s.mem.read (s.smm.base + BitVec.ofNat 32 (0xFE00 + k)).toNat := by
  simp [State.area, State.bytesAt, saveArea, List.getD_eq_getElem?_getD, h, BitVec.ofNat_add, BitVec.add_assoc]

/-- A doubleword of the area is the statement's slot. -/
theorem saved_slot (s : State) {off : Nat} (hlow : 0xFE00 ≤ off) (hhigh : off + 4 ≤ 0x10000) : saved s.area off 4 = s.slot off := by
  have hbytes : ((List.range 4).map fun j => s.area.getD (off - 0xFE00 + j) 0) =
      (List.range 4).map fun j => s.mem.read (s.smm.base + BitVec.ofNat 32 (off + j)).toNat :=
    List.map_congr_left fun j hj => by
      have := List.mem_range.1 hj
      rw [area_getD (by omega), show 0xFE00 + (off - 0xFE00 + j) = off + j by omega]
  rw [saved, field, ofLe, leNat_field, hbytes]
  rfl

/-- The first bytes spell the number's value below a power of 256. -/
theorem leNat_take (n : Nat) : ∀ bs : List Byte, leNat (bs.take n) = leNat bs % 256 ^ n := by
  induction n with
  | zero => intro bs; simp [leNat, Nat.mod_one]
  | succ n ih =>
    intro bs
    cases bs with
    | nil => simp [leNat]
    | cons b t =>
      have hb := b.isLt
      have hlow : (b.toNat + 256 * leNat t) % 256 = b.toNat := by omega
      have hhigh : (b.toNat + 256 * leNat t) / 256 = leNat t := by omega
      rw [List.take_succ_cons, leNat, leNat, ih, Nat.pow_succ', Nat.mod_mul, hlow, hhigh]

/-- A word of the area is the low half of a slot. -/
theorem saved_half (s : State) {off : Nat} (hlow : 0xFE00 ≤ off) (hhigh : off + 4 ≤ 0x10000) :
    saved s.area off 2 = ((s.slot off).setWidth 16).setWidth 32 := by
  rw [← saved_slot s hlow hhigh]
  unfold saved field ofLe
  rw [leNat_take, leNat_take]
  apply BitVec.eq_of_toNat_eq
  simp only [BitVec.toNat_setWidth, BitVec.toNat_ofNat]
  omega

theorem half_getLsbD_zero (w : Word) : ((w.setWidth 16).setWidth 32).getLsbD 0 = w.getLsbD 0 := by simp

/-! ### What RSM rejects -/

theorem rsmShutdown_iff (s : State) : rsmShutdown s.area = true ↔ badSave s := by
  unfold rsmShutdown badSave badCr4 badCr0
  simp (disch := decide) only [saved_slot]
  have hbase : (s.slot 0xFEF8).extractLsb' 0 15 = 0 ↔ (s.slot 0xFEF8).toNat % 32768 = 0 := by
    simp [← BitVec.toNat_inj]
  simp only [Bool.or_eq_true, Bool.and_eq_true, bne_iff_ne, ne_eq, Bool.not_eq_true', hbase, or_assoc]

/-- The offset of a byte that the handler may change (R713). -/
abbrev mayChange (k : Nat) : Prop := (0x1D0 ≤ k ∧ k < 0x1F8) ∨ (0x100 ≤ k ∧ k < 0x104) ∨ (0xF8 ≤ k ∧ k < 0xFC)

/-- Where the read-only slots are, and how long: the same in every state (R712, R713). -/
abbrev keptSlots : List (Nat × Nat) :=
  (readOnlySlots State.reset).map (fun f => (f.1, f.2.1))
    ++ [(0xFFA4, 4), (0xFF9C, 4), (0xFF0C, 4), (0xFF08, 4), (0xFF04, 4)]

theorem keptSlots_fixed : ∀ f ∈ keptSlots, ∀ j, j < f.2 → f.1 - 0xFE00 + j < 512 ∧ ¬ mayChange (f.1 - 0xFE00 + j) := by
  decide +kernel

theorem readOnlyKept_of_handlerKept {s : State} (h : handlerKept s) : readOnlyKept s s.area = true := by
  unfold readOnlyKept
  split
  · rfl
  · next img himg =>
    refine List.all_eq_true.2 fun f (hf : f ∈ keptSlots) => beq_iff_eq.2 (saved_congr fun j hj => ?_)
    obtain ⟨hk, hfixed⟩ := keptSlots_fixed f hf j hj
    rw [area_getD hk]
    rcases h img himg _ hk with hc | hc | hc | hread
    · exact absurd (.inl hc) hfixed
    · exact absurd (.inr (.inl hc)) hfixed
    · exact absurd (.inr (.inr hc)) hfixed
    · exact hread

theorem restartOk_of_restartAllowed {s : State} (h : restartAllowed s) : restartOk s.area = true := by
  unfold restartOk
  simp (disch := decide) only [saved_half, saved_slot, half_getLsbD_zero]
  rcases h with h | ⟨hio, hvalid, hhalt⟩
  · rw [h]; rfl
  · rw [hio, hvalid, hhalt]; rfl

/-! ### What RSM restores -/

theorem restoreSeg_area (s : State) {sel attr base limit : Nat}
    (h : ∀ off ∈ [sel, attr, base, limit], 0xFE00 ≤ off ∧ off + 4 ≤ 0x10000) :
    restoreSeg s.area sel attr base limit = savedSeg s sel attr base limit := by
  have hslot (off : Nat) (ho : off ∈ [sel, attr, base, limit]) := saved_slot s (h off ho).1 (h off ho).2
  unfold restoreSeg savedSeg
  rw [hslot sel (by simp), hslot attr (by simp), hslot base (by simp), hslot limit (by simp)]

theorem restoreSegs_area (s : State) : restoreSegs s.area = savedSegs s := by
  simp (disch := decide) only [restoreSegs, savedSegs, restoreSeg_area]

theorem restoreSys_area (s : State) : restoreSys s.area = savedSys s := by
  simp (disch := decide) only [restoreSys, savedSys, restoreSeg_area, saved_slot]

theorem restoreGpr_area (s : State) : restoreGpr s.area = savedGpr s := by
  simp (disch := decide) only [restoreGpr, savedGpr, saved_slot]

theorem restoredCpl_area (s : State) :
    restoredCpl (savedCr s).cr0 (Flags.ofWord (s.slot 0xFFF4)) (savedSegs s).ss = savedCpl s := by
  unfold restoredCpl savedCpl savedCr
  cases (s.slot 0xFFFC).getLsbD 0 <;> rfl

/-- The registers are loaded from the slots; the TLB and the linear tags go (R720). -/
theorem rsmRegisters_area (s : State) : rsmRegisters s.area s = { s with
    eip := s.slot 0xFFF0, gpr := savedGpr s, flags := Flags.ofWord (s.slot 0xFFF4), cpl := savedCpl s, cr := savedCr s,
    dr := savedDr s, seg := savedSegs s, sys := savedSys s, cache := (dropLinearTags (flushTlbAll s)).cache } := by
  unfold rsmRegisters
  simp (disch := decide) only [restoreSegs_area, restoreSys_area, restoreGpr_area, saved_slot, dropLinearTags, flushTlbAll,
    State.setCr, State.setFlags, State.setEip, State.setGpr, State.setSeg, State.setSys, State.setDr, State.setCpl, State.setCache]
  rw [← restoredCpl_area]
  rfl

/-- The state after RSM, before anything is resumed (R720). -/
def State.restored (s : State) : State :=
  { s with
    eip := s.slot 0xFFF0, gpr := savedGpr s, flags := Flags.ofWord (s.slot 0xFFF4), cpl := savedCpl s, cr := savedCr s
    dr := savedDr s, seg := savedSegs s, sys := savedSys s, cache := (dropLinearTags (flushTlbAll s)).cache
    smm := { s.smm with
      active := false, base := s.slot 0xFEF8, lastIo := none, dbPostponed := false, image := none, fromShutdown := false }
    intr := { s.intr with nmiMasked := false }
    scr := { s.scr with rfLoaded := true } }

/-- Where the two maps coincide, RSM loads the registers and serializes what it resumes. -/
theorem rsmRestore_eq {s : State} (h : oneMap s.plat = true) :
    rsmRestore s.area s = serialize (openTrace s.seg.cs.sel (rsmResume s.area s s.restored)) := by
  unfold rsmRestore swapMaps
  rw [if_pos h, rsmRegisters_area, saved_slot s (by decide) (by decide)]
  rfl

theorem restored_spec {s t : State} (h : Quiet s.advance t) : Restored s t.restored := by
  obtain ⟨c, d, rfl, -⟩ := h
  exact { cr := rfl, flags := rfl, cpl := rfl, seg := rfl, sys := rfl, dr := rfl, smm := rfl, nmi := rfl, tlb := rfl,
          fpu := rfl, msr := rfl, mem := rfl }

/-- What the restored registers are does not depend on EIP, the general registers, the clock state or the bus. -/
theorem Restored.update {s t : State} (h : Restored s t) (e : Word) (g : Gpr) {i : Intr} (x : Scratch) (k : Clock)
    (b : List BusEvent) (d : Nat) {c : Caches} (hi : i.nmiMasked = false) (hc : c.tlb = []) :
    Restored s { t with eip := e, gpr := g, intr := i, scr := x, clock := k, bus := b, draws := d, cache := c } :=
  { cr := h.cr, flags := h.flags, cpl := h.cpl, seg := h.seg, sys := h.sys, dr := h.dr, smm := h.smm, nmi := hi, tlb := hc,
    fpu := h.fpu, msr := h.msr, mem := h.mem }

/-! ### Resuming -/

/-- The messages of a branch change the caches' record and the bus record alone (R850). -/
theorem traceBranch_eq (cs : Half) (s : State) :
    ∃ c b, traceBranch cs s = { s with cache := c, bus := b } ∧ c.tlb = s.cache.tlb := by
  unfold traceBranch
  split
  · dsimp only
    rw [drive_eq, drive_eq]
    exact ⟨_, _, rfl, rfl⟩
  · exact ⟨s.cache, s.bus, rfl, rfl⟩

/-- Whether the messages are sent or not: without tracing there are none. -/
theorem openTrace_eq (cs : Half) (s : State) :
    ∃ c b d, openTrace cs s = { s with cache := c, bus := b, draws := d } ∧ c.tlb = s.cache.tlb ∧
      (s.tracing = false → b = s.bus) := by
  unfold openTrace
  split
  · next ht =>
    dsimp only
    split
    · obtain ⟨c, b, e, hc⟩ := traceBranch_eq cs (s.setDraws (s.draws + 1))
      exact ⟨c, b, _, e, hc, fun hf => absurd (ht.symm.trans hf) (by decide)⟩
    · exact ⟨_, _, _, rfl, rfl, fun _ => rfl⟩
  · exact ⟨s.cache, s.bus, s.draws, rfl, rfl, fun _ => rfl⟩

theorem enterShutdown_eq (s : State) : ∃ c, enterShutdown s = { s with
    clock := .shutdown, bus := .special 0xFE 0 0 :: s.bus, cache := c
    intr := { s.intr with dbTrap := false, shadow := .none, handling := none }, scr := { s.scr with noTrap := true } } ∧
      c.tlb = s.cache.tlb := by
  unfold enterShutdown
  rw [special_eq]
  exact ⟨_, rfl, rfl⟩

/-- What RSM does last changes none of the restored registers. -/
theorem rsmResume_restored {s u : State} (h : Restored s u) (bs : List Byte) (old : State) :
    Restored s (rsmResume bs old u) := by
  unfold rsmResume
  split
  · rw [special_eq]
    exact h.update _ _ _ .halt _ _ h.nmi h.tlb
  · split
    · exact h.update _ _ _ _ _ _ h.nmi h.tlb
    · split
      · exact h.update (i := { u.intr with dbTrap := true }) _ _ _ _ _ _ h.nmi h.tlb
      · split
        · obtain ⟨c, e, hc⟩ := enterShutdown_eq u
          rw [e]
          exact h.update _ _ _ _ _ _ h.nmi (hc.trans h.tlb)
        · exact h

/-- A halt restart halts the processor again (R708). -/
theorem rsmResume_halt {s u : State} {old : State} (h : (s.slot 0xFF02).getLsbD 0 = true) :
    rsmResume s.area old u = (special 0xFB 0 u).setClock .halt := by
  unfold rsmResume
  rw [saved_half s (by decide) (by decide), half_getLsbD_zero, if_pos h]

/-- An I/O restart goes back to the I/O instruction (R709). -/
theorem rsmResume_io {s u : State} {old : State} (hh : (s.slot 0xFF02).getLsbD 0 = false)
    (h : (s.slot 0xFF00).setWidth 16 = (0xFF : Half)) :
    rsmResume s.area old u = (u.setEip (s.slot 0xFF9C)).setGpr
      { u.gpr with esi := s.slot 0xFF0C, ecx := s.slot 0xFF08, edi := s.slot 0xFF04 } := by
  unfold rsmResume
  simp (disch := decide) only [saved_half, saved_slot, half_getLsbD_zero, hh, h]
  rfl

/-- Without a restart the debug trap, or Shutdown, or nothing is left to resume (R722, R630). -/
theorem rsmResume_none {s u : State} {old : State} (hh : (s.slot 0xFF02).getLsbD 0 = false)
    (h : (s.slot 0xFF00).setWidth 16 = (0 : Half)) :
    rsmResume s.area old u =
      if old.smm.dbPostponed then u.setIntr { u.intr with dbTrap := true }
      else if old.smm.fromShutdown && old.smm.image == some s.area then enterShutdown u else u := by
  unfold rsmResume
  simp (disch := decide) only [saved_half, half_getLsbD_zero, hh, h]
  rfl

/-! ### The instruction -/

theorem exec_rsm (p : Pfx) (s : State) : exec (.rsm p) s = run rsmOp s := rfl

theorem rsmOp_outside {s : State} (h : s.smm.active = false) : rsmOp s = .error (.exc (Exc.fault vUD none)) s := by
  unfold rsmOp
  rw [M.get_bind, h]
  rfl

theorem rsmOp_denied {s : State} (h : s.smm.active = true) (hl : s.level ≠ 0) :
    rsmOp s = .error (.exc (Exc.fault vGP (some 0))) s := by
  unfold rsmOp
  rw [M.get_bind, h]
  exact M.bind_error (privileged_denied hl)

/-- The area has been read, with the caches alone disturbed: what is left is to look at it. -/
theorem rsmOp_read {s : State} (h : s.smm.active = true) (hl : s.level = 0) (hf : s.cache.foreign = false) :
    ∃ t, Quiet s t ∧ rsmOp s = (if rsmShutdown s.area then update fun t => enterShutdown (serialize t)
      else if !(readOnlyKept s s.area && restartOk s.area) then refuse .saveArea else update (rsmRestore s.area)) t := by
  obtain ⟨t, hq, ht⟩ := peek_quiet (saveArea s s.smm.base) hf
  refine ⟨t, hq, ?_⟩
  unfold rsmOp
  rw [M.get_bind, h]
  exact (M.bind_ok (privileged_ok hl)).trans (M.bind_ok ht)

theorem rsmOp_rejected {s : State} (h : s.smm.active = true) (hl : s.level = 0) (hf : s.cache.foreign = false)
    (hb : badSave s) : ∃ t, Quiet s t ∧ rsmOp s = .ok () (enterShutdown (serialize t)) := by
  obtain ⟨t, hq, e⟩ := rsmOp_read h hl hf
  rw [if_pos ((rsmShutdown_iff s).2 hb)] at e
  exact ⟨t, hq, e⟩

theorem rsmOp_restores {s : State} (h : s.smm.active = true) (hl : s.level = 0) (hf : s.cache.foreign = false)
    (hb : ¬ badSave s) (hk : handlerKept s) (hr : restartAllowed s) :
    ∃ t, Quiet s t ∧ rsmOp s = .ok () (rsmRestore s.area t) := by
  obtain ⟨t, hq, e⟩ := rsmOp_read h hl hf
  rw [if_neg (mt (rsmShutdown_iff s).1 hb), readOnlyKept_of_handlerKept hk, restartOk_of_restartAllowed hr] at e
  exact ⟨t, hq, e⟩

/-- The last of RSM: the messages, if any, and the serialization (R151, R850). -/
theorem serialize_openTrace_eq (cs : Half) (u : State) :
    ∃ c b d, serialize (openTrace cs u) = { u with cache := c, bus := b, draws := d } ∧ c.tlb = u.cache.tlb ∧
      (u.tracing = false → b = u.bus) := by
  obtain ⟨c, b, d, e, hc, hb⟩ := openTrace_eq cs u
  rw [e, serialize_eq]
  exact ⟨_, b, d, rfl, hc, hb⟩

/-- RSM on an area that it accepts: the registers of the area, and what is resumed. -/
theorem exec_rsm_restores {p : Pfx} {s : State} (h : s.smm.active = true) (hl : s.level = 0) (hf : s.cache.foreign = false)
    (hone : oneMap s.plat = true) (hb : ¬ badSave s) (hk : handlerKept s) (hr : restartAllowed s) :
    ∃ t u c b d, Quiet s.advance t ∧ rsmResume s.area t t.restored = u ∧
      exec (.rsm p) s = .next { u with cache := c, bus := b, draws := d } ∧ c.tlb = u.cache.tlb ∧
      (u.tracing = false → b = u.bus) := by
  obtain ⟨t, hq, e⟩ := rsmOp_restores (s := s.advance) h hl hf hb hk hr
  have harea : s.advance.area = t.area := by obtain ⟨c, d, rfl, -⟩ := hq; rfl
  have hplat : t.plat = s.plat := hq.plat
  rw [harea, rsmRestore_eq (by rw [hplat]; exact hone), ← harea] at e
  obtain ⟨c, b, d, e', hc, hb⟩ := serialize_openTrace_eq t.seg.cs.sel (rsmResume s.advance.area t t.restored)
  exact ⟨t, _, c, b, d, hq, rfl, run_ok (e.trans (congrArg _ e')), hc, hb⟩

end Sys2Proof.Machine

open Sys2Proof Sys2Proof.Machine

/-- Settles O46: the checks in their order, then the registers of the area, and each way to resume. -/
theorem resumeResult : Obligations.ResumeResult := by
  unfold Obligations.ResumeResult
  intro p s
  refine ⟨fun ha => ?_, fun ha hl => ?_, fun ha hl hf hb => ?_, fun ha hl hf hone hb hk hr => ?_⟩
  · exact run_exc (rsmOp_outside (s := s.advance) ha)
  · exact run_exc (rsmOp_denied (s := s.advance) ha hl)
  · obtain ⟨t, ⟨c, d, rfl, -⟩, e⟩ := rsmOp_rejected (s := s.advance) ha hl hf hb
    obtain ⟨c', e', -⟩ := enterShutdown_eq (serialize ((s.advance.setCache c).setDraws d))
    exact ⟨_, run_ok (e.trans (congrArg _ e')), rfl⟩
  · obtain ⟨t, u, c, b, d, hq, hu, e, hc, hbus⟩ := exec_rsm_restores (p := p) ha hl hf hone hb hk hr
    have hres : Restored s u := hu ▸ rsmResume_restored (restored_spec hq) _ _
    obtain ⟨c₀, d₀, rfl, -⟩ := hq
    have hend := hres.update u.eip u.gpr u.scr u.clock b d hres.nmi (hc.trans hres.tlb)
    refine ⟨⟨_, e, hend, fun hh => ?_, fun hio => ?_, fun hh hio hdb => ?_⟩, fun ⟨hh, hio, hdb, hshut⟩ => ⟨_, e, hend, ?_⟩⟩
    · rw [rsmResume_halt hh, special_eq] at hu
      subst hu
      exact ⟨rfl, rfl, rfl⟩
    · have hh : (s.slot 0xFF02).getLsbD 0 = false := by
        rcases hr with hr | ⟨-, -, hh⟩
        · exact absurd (hio.symm.trans hr) (by decide)
        · exact hh
      rw [rsmResume_io hh hio] at hu
      subst hu
      exact ⟨rfl, rfl⟩
    · obtain rfl := hu.symm.trans ((rsmResume_none hh hio).trans (if_pos hdb))
      exact ⟨rfl, rfl, rfl⟩
    · obtain rfl := hu.symm.trans ((rsmResume_none hh hio).trans
        ((if_neg (by simp [hdb])).trans (if_neg (by simp [hshut]))))
      exact ⟨rfl, hbus⟩

end

section
/-! PROOFS. O36: every privileged instruction tests the level before anything else; LLDT and LTR test the mode before it (R480, R502,
R503). -/
namespace Sys2Proof.Machine

open Sys2Proof

/-- A meaning that stops at its first check raises what the check raises, with nothing done. -/
theorem run_first_denied {α : Type} {m : M α} {f : α → M Unit} {s : State} {x : Exc}
    (h : m s.advance = .error (.exc x) s.advance) : run (m >>= f) s = takeException x s s.advance :=
  run_exc (M.bind_error h)

theorem drChecks_denied (n : BitVec 3) {s : State} (h : s.level ≠ 0) :
    drChecks n s = .error (.exc (Exc.fault vGP (some 0))) s := M.bind_error (privileged_denied h)

theorem loadTable_denied (p : Pfx) (m : MemOp) {s : State} (h : s.level ≠ 0) :
    loadTable p m s = .error (.exc (Exc.fault vGP (some 0))) s := M.bind_error (privileged_denied h)

theorem protOnly_outside {s : State} (h : s.mode ≠ .prot) : protOnly s = .error (.exc (Exc.fault vUD none)) s := by
  unfold protOnly
  rw [M.get_bind, show (s.mode == .prot) = false from beq_false_of_ne h]
  rfl

theorem protOnly_inside {s : State} (h : s.mode = .prot) : protOnly s = privileged s := by
  unfold protOnly
  rw [M.get_bind, h]
  rfl

theorem protOnly_ok {s : State} (h : s.mode = .prot) (hl : s.level = 0) : protOnly s = .ok () s :=
  (protOnly_inside h).trans (privileged_ok hl)

theorem protOnly_denied {s : State} (h : s.mode = .prot) (hl : s.level ≠ 0) :
    protOnly s = .error (.exc (Exc.fault vGP (some 0))) s := (protOnly_inside h).trans (privileged_denied hl)

/-- The level is tested first. -/
theorem exec_privileged_denied {i : Instr} {s : State} (hi : IsPrivileged i) (hl : s.level ≠ 0) :
    exec i s = takeException (Exc.fault vGP (some 0)) s s.advance := by
  have hlevel : privileged s.advance = .error (.exc (Exc.fault vGP (some 0))) s.advance := privileged_denied hl
  cases hi with
  | hlt | invd | wbinvd | invlpgM | rdmsr | wrmsr => exact run_first_denied hlevel
  | readCr h => cases h <;> exact run_first_denied hlevel
  | writeCr h => cases h <;> exact run_first_denied hlevel
  | movRDr | movDrR => exact run_first_denied (drChecks_denied _ (s := s.advance) hl)
  | lgdtMs | lidtMs => exact run_first_denied (loadTable_denied _ _ (s := s.advance) hl)

/-- LLDT and LTR test the mode and the level first. -/
theorem exec_systemSegment_first {p : Pfx} {rm : RM} {i : Instr} (hi : i = .lldtEw p rm ∨ i = .ltrEw p rm) {s : State} {x : Exc}
    (h : protOnly s.advance = .error (.exc x) s.advance) : exec i s = takeException x s s.advance := by
  obtain rfl | rfl := hi <;> exact run_first_denied h

end Sys2Proof.Machine

open Sys2Proof Sys2Proof.Machine

/-- Settles O36, by the check with which each instruction begins. -/
theorem privilegedRefused : Obligations.PrivilegedRefused := by
  unfold Obligations.PrivilegedRefused
  refine ⟨fun i s hi hl => exec_privileged_denied hi hl, fun p rm i s hi => ⟨fun hm hl => ?_, fun hm => ?_⟩⟩
  · exact exec_systemSegment_first hi (protOnly_denied (s := s.advance) hm hl)
  · exact exec_systemSegment_first hi (protOnly_outside (s := s.advance) hm)

end

section
/-! PROOFS. O41 and O42: LGDT and LIDT read six bytes; LLDT and LTR read a selector, then a descriptor of the GDT that must be a present
system descriptor of the right type, and LTR sets the Busy bit in the descriptor's doubleword (R500 to R503). -/
namespace Sys2Proof.Machine

open Sys2Proof

/-! ### LGDT and LIDT -/

theorem tableOf_eq_tableIn (o : OSz) (bs : List Byte) : tableOf o bs = tableIn o bs := by cases o <;> rfl

theorem loadTable_flat {p : Pfx} {m : MemOp} {s : State} (hf : s.flat = true) (hl : s.level = 0)
    (h : s.may (segFor p m) (effAddr m s.gpr) 6 4 false = true) :
    ∃ t, Quiet s t ∧ loadTable p m s = .ok (tableIn p.osz (s.bytes (segFor p m) (effAddr m s.gpr) 6)) t := by
  obtain ⟨t, hq, ht⟩ := loadBytes_flat hf h
  refine ⟨t, hq, ?_⟩
  unfold loadTable
  rw [M.bind_ok (privileged_ok hl), M.get_bind, M.bind_ok ht, tableOf_eq_tableIn]
  rfl

/-- A table register is loaded, then the instruction serializes (R151). -/
theorem run_loadTable_flat {p : Pfx} {m : MemOp} {s : State} (put : TableReg → SysRegs → SysRegs) (hf : s.flat = true)
    (hl : s.level = 0) (h : s.may (segFor p m) (effAddr m s.gpr) 6 4 false = true) :
    ∃ t, run (loadTable p m >>= fun v => update fun s => serialize (s.setSys (put v s.sys))) s = .next t ∧
      t = { s.advance with
        sys := put (tableIn p.osz (s.bytes (segFor p m) (effAddr m s.gpr) 6)) s.sys, cache := t.cache, draws := t.draws } := by
  obtain ⟨t, ⟨c, d, rfl, -⟩, ht⟩ := loadTable_flat (s := s.advance) hf hl h
  exact ⟨_, run_ok (M.bind_ok ht), rfl⟩

/-! ### The descriptor of LLDT and LTR -/

theorem Quiet.sysBytes {s t : State} (h : Quiet s t) (la : Word) (n : Nat) : t.sysBytes la n = s.sysBytes la n := by
  obtain ⟨c, d, rfl, -⟩ := h
  rfl

theorem Quiet.descAddr {s t : State} (h : Quiet s t) (sel : Half) : t.descAddr sel = s.descAddr sel := by
  obtain ⟨c, d, rfl, -⟩ := h
  rfl

theorem Quiet.descAt {s t : State} (h : Quiet s t) (la : Word) : descAt t la = descAt s la := by
  unfold Machine.descAt
  rw [h.sysBytes]

theorem Quiet.systemFault {s t : State} (h : Quiet s t) (sel : Half) (types : List (BitVec 4)) :
    systemFault t sel types = systemFault s sel types := by
  obtain ⟨c, d, rfl, -⟩ := h
  rfl

theorem selErr_of_nullSel {sel : Half} (h : nullSel sel = true) : selErr sel = 0 := by
  have hindex : sel.toNat / 4 % 2 ^ 14 = 0 := by
    simpa [nullSel, ← BitVec.toNat_inj, Nat.shiftRight_eq_div_pow] using h
  have hlt := sel.isLt
  have hsmall : sel = 0 ∨ sel = 1 ∨ sel = 2 ∨ sel = 3 := by bv_omega
  obtain rfl | rfl | rfl | rfl := hsmall <;> rfl

/-- The descriptor of a selector that is not null, with the checks that LLDT and LTR share (R502, R503). -/
def systemDesc (sel : Half) (types : List (BitVec 4)) : M Desc := do
  check (!sel.getLsbD 2) vGP (some (selErr sel))
  let d ← readDesc sel vGP (selErr sel)
  check (!d.attr.s && types.contains d.attr.typ) vGP (some (selErr sel))
  check d.attr.p vNP (some (selErr sel))
  pure d

theorem readDesc_outside {s : State} {sel : Half} {v : Byte} {code : Half} (h : s.descAddr sel = none) :
    readDesc sel v code s = .error (.exc (Exc.fault v (some code))) s := by
  unfold readDesc
  rw [M.get_bind, h]
  rfl

/-- A descriptor inside the GDT is read, and then checked. -/
theorem systemDesc_read {s : State} {sel : Half} {la : Word} (types : List (BitVec 4)) (hf : s.flat = true)
    (htable : sel.getLsbD 2 = false) (hla : s.descAddr sel = some la) :
    ∃ t, Quiet s t ∧ systemDesc sel types s = (do
      check (!(descAt s la).attr.s && types.contains (descAt s la).attr.typ) vGP (some (selErr sel))
      check (descAt s la).attr.p vNP (some (selErr sel))
      pure (descAt s la) : M Desc) t := by
  obtain ⟨t, hq, ht⟩ := readDesc_flat (v := vGP) (code := selErr sel) hf hla
  refine ⟨t, hq, ?_⟩
  unfold systemDesc
  rw [htable]
  exact M.bind_ok ht

theorem systemDesc_ok {s : State} {sel : Half} {types : List (BitVec 4)} {la : Word} (hf : s.flat = true)
    (htable : sel.getLsbD 2 = false) (hla : s.descAddr sel = some la) (hsys : (descAt s la).attr.s = false)
    (htype : (descAt s la).attr.typ ∈ types) (hp : (descAt s la).attr.p = true) :
    ∃ t, Quiet s t ∧ systemDesc sel types s = .ok (descAt s la) t := by
  obtain ⟨t, hq, ht⟩ := systemDesc_read types hf htable hla
  rw [hsys, List.contains_iff_mem.2 htype, hp] at ht
  exact ⟨t, hq, ht⟩

theorem systemDesc_fault {s : State} {sel : Half} {types : List (BitVec 4)} {v : Byte} (hf : s.flat = true)
    (h : systemFault s sel types = some v) :
    ∃ t, Quiet s t ∧ systemDesc sel types s = .error (.exc (Exc.fault v (some (selErr sel)))) t := by
  unfold systemFault at h
  cases htable : sel.getLsbD 2 with
  | true =>
    rw [htable] at h
    cases h
    refine ⟨s, Quiet.refl (State.flat_foreign hf), ?_⟩
    unfold systemDesc
    rw [htable]
    rfl
  | false =>
    rw [htable] at h
    cases hla : s.descAddr sel with
    | none =>
      rw [hla] at h
      cases h
      refine ⟨s, Quiet.refl (State.flat_foreign hf), ?_⟩
      unfold systemDesc
      rw [htable]
      exact M.bind_error (m := readDesc sel vGP (selErr sel)) (readDesc_outside hla)
    | some la =>
      obtain ⟨t, hq, ht⟩ := systemDesc_read types hf htable hla
      refine ⟨t, hq, ht.trans ?_⟩
      rw [hla] at h
      dsimp only at h
      generalize descAt s la = d at h ⊢
      have hadmits : (!d.attr.s && types.contains d.attr.typ) = !(d.attr.s || !types.contains d.attr.typ) := by simp
      rw [hadmits]
      cases hbad : d.attr.s || !types.contains d.attr.typ with
      | true =>
        rw [hbad] at h
        cases h
        rfl
      | false =>
        rw [hbad] at h
        cases hp : d.attr.p with
        | true => rw [hp] at h; cases h
        | false => rw [hp] at h; cases h; rfl

/-! ### LLDT -/

/-- LLDT reads its selector, and then the descriptor of one that is not null. -/
theorem lldtOp_flat {p : Pfx} {rm : RM} {s : State} {sel : Half} (hf : s.flat = true) (hm : s.mode = .prot) (hl : s.level = 0)
    (h : s.mayUse .w false (placeOf p s.gpr rm) = true) (hsel : s.get .w (placeOf p s.gpr rm) = sel) :
    ∃ t, Quiet s t ∧ lldtOp p rm s =
      (if nullSel sel then update fun s => serialize (s.setSys { s.sys with ldtr := SegReg.null sel })
      else systemDesc sel [2] >>= fun d => update fun s => serialize (s.setSys { s.sys with ldtr := d.reg sel d.attr.typ })) t := by
  obtain ⟨t, hq, ht⟩ := loadRm_flat (p := p) (sz := .w) hf h
  refine ⟨t, hq, ?_⟩
  have htype (typ : BitVec 4) : (typ.toNat == 2) = [2].contains typ := by revert typ; decide
  unfold lldtOp systemDesc
  rw [M.bind_ok (protOnly_ok hm hl), M.bind_ok ht, hsel]
  simp only [Desc.sysType, htype, bind_assoc, pure_bind]

/-! ### LTR -/

/-- LTR with a descriptor that it may load: the Busy bit is set in memory and in the register (R502). -/
def loadTss (sel : Half) (d : Desc) : M Unit := do
  let bs ← openType d
  update (note .serial)
  lockedUpdate bs (· ||| 2)
  update fun s => dropMarks (s.setSys { s.sys with tr := d.reg sel (d.attr.typ ||| 2) })

/-- LTR reads its selector, and then the descriptor of one that is not null. -/
theorem ltrOp_flat {p : Pfx} {rm : RM} {s : State} {sel : Half} (hf : s.flat = true) (hm : s.mode = .prot) (hl : s.level = 0)
    (h : s.mayUse .w false (placeOf p s.gpr rm) = true) (hsel : s.get .w (placeOf p s.gpr rm) = sel) :
    ∃ t, Quiet s t ∧ ltrOp p rm s = (if nullSel sel then raise vGP (some 0) else systemDesc sel [1, 9] >>= loadTss sel) t := by
  obtain ⟨t, hq, ht⟩ := loadRm_flat (p := p) (sz := .w) hf h
  refine ⟨t, hq, ?_⟩
  have htype (typ : BitVec 4) : (typ.toNat == 1 || typ.toNat == 9) = [1, 9].contains typ := by revert typ; decide
  unfold ltrOp systemDesc loadTss
  rw [M.bind_ok (protOnly_ok hm hl), M.bind_ok ht, hsel]
  cases hnull : nullSel sel with
  | true => rw [selErr_of_nullSel hnull]; rfl
  | false => simp only [Desc.sysType, htype, bind_assoc, pure_bind, Bool.not_false, Bool.true_and, Bool.false_eq_true, if_false]

/-- Four bytes written back with the second one changed, at four addresses: only that one reads differently. -/
theorem writeAt_modify_second {m : Memory} {b₀ b₁ b₂ b₃ : Byt} (f : Byte → Byte)
    (h : b₁.pa ≠ b₀.pa ∧ b₁.pa ≠ b₂.pa ∧ b₁.pa ≠ b₃.pa) (a : Nat) :
    (writeAt m ([b₀, b₁, b₂, b₃].zip (([b₀, b₁, b₂, b₃].map fun b => m.read b.pa).modify 1 f))).read a =
      if a = b₁.pa then f (m.read a) else m.read a := by
  obtain ⟨h0, h2, h3⟩ := h
  simp only [List.map_cons, List.map_nil, List.modify_succ_cons, List.modify_zero_cons, List.zip_cons_cons, List.zip_nil_right,
    writeAt, List.foldl_cons, List.foldl_nil, Memory.read_write]
  grind

theorem maskA20_prot {s : State} (hm : s.mode = .prot) (la : Word) : s.maskA20 la = la := by simp [State.maskA20, hm]

/-- The doubleword that holds the access byte of a descriptor is its second one. -/
theorem openType_flat {s : State} (la : Word) (hf : s.flat = true) (hm : s.mode = .prot) :
    openType (descAt s la) s = .ok [s.byt (la + 4), s.byt (la + 5), s.byt (la + 6), s.byt (la + 7)] s := by
  have hnext (k : Word) : la + 4 + k = la + (4 + k) := BitVec.add_assoc ..
  unfold openType
  rw [openSys_off _ 4 true (State.flat_pg hf), show List.range 4 = [0, 1, 2, 3] from rfl]
  simp only [List.map_cons, List.map_nil, maskA20_prot hm, descAt, hnext]
  rfl

/-- The locked update of that doubleword changes byte 5 of the descriptor, and no other byte (R106). -/
theorem lockedUpdate_access {s : State} (la : Word) (f : Byte → Byte) (hf : s.flat = true) (hm : s.mode = .prot) :
    ∃ m c d, lockedUpdate [s.byt (la + 4), s.byt (la + 5), s.byt (la + 6), s.byt (la + 7)] f s =
        .ok () { s with mem := m, cache := c, draws := d } ∧
      ∀ a, m.read a = if a = s.sysAddr la 5 then f (s.mem.read a) else s.mem.read a := by
  obtain ⟨t, ⟨c₀, d, rfl, -⟩, c, -, ht⟩ :=
    lockedUpdate_flat [s.byt (la + 4), s.byt (la + 5), s.byt (la + 6), s.byt (la + 7)] f hf
  refine ⟨_, c, d, ht, fun a => (writeAt_modify_second f ?_ a).trans ?_⟩
  · simp only [State.byt]
    bv_omega
  · rw [State.sysAddr, maskA20_prot hm]
    rfl

/-- Marking a TSS busy sets a bit of its descriptor in memory and in the register (R502). -/
theorem loadTss_flat {s : State} {sel : Half} (la : Word) (hf : s.flat = true) (hm : s.mode = .prot) :
    ∃ t, loadTss sel (descAt s la) s = .ok () t ∧
      t = { s with
        sys := { s.sys with tr := sysLoad sel (descAt s la) ((descAt s la).attr.typ ||| 2) }, mem := t.mem, cache := t.cache
        draws := t.draws } ∧
      ∀ a, t.mem.read a = if a = s.sysAddr la 5 then s.mem.read a ||| 2 else s.mem.read a := by
  obtain ⟨m, c, d, ht, hmem⟩ := lockedUpdate_access (s := note .serial s) la (· ||| 2) hf hm
  have hrun : loadTss sel (descAt s la) s = .ok () _ :=
    (M.bind_ok (openType_flat la hf hm)).trans ((update_bind ..).trans (M.bind_ok ht))
  simp only [dropMarks_eq, note_eq] at hrun
  exact ⟨_, hrun, rfl, hmem⟩

/-! ### The outcomes -/

section
variable {p : Pfx} {rm : RM} {s : State} {sel : Half} (hf : s.flat = true) (hm : s.mode = .prot) (hl : s.level = 0)
  (h : s.mayUse .w false (placeOf p s.gpr rm) = true) (hsel : s.get .w (placeOf p s.gpr rm) = sel)
include hf hm hl h hsel

/-- LLDT with a null selector makes the LDT unusable (R503). -/
theorem lldtOp_null (hnull : nullSel sel = true) :
    ∃ c d, lldtOp p rm s =
      .ok () { s with sys := { s.sys with ldtr := SegReg.null sel }, cache := c, draws := d } := by
  obtain ⟨t, ⟨c, d, rfl, -⟩, ht⟩ := lldtOp_flat hf hm hl h hsel
  rw [if_pos hnull] at ht
  exact ⟨_, d, ht⟩

/-- LLDT loads the descriptor of an LDT (R503). -/
theorem lldtOp_loads {la : Word} (hnull : nullSel sel = false)
    (htable : sel.getLsbD 2 = false) (hla : s.descAddr sel = some la) (hs : (descAt s la).attr.s = false)
    (htype : (descAt s la).attr.typ = 2) (hp : (descAt s la).attr.p = true) :
    ∃ c d, lldtOp p rm s =
      .ok () { s with sys := { s.sys with ldtr := sysLoad sel (descAt s la) 2 }, cache := c, draws := d } := by
  obtain ⟨t, hq, ht⟩ := lldtOp_flat hf hm hl h hsel
  rw [if_neg (by simp [hnull])] at ht
  rw [← hq.descAt] at hs htype hp ⊢
  obtain ⟨u, hu, he⟩ := systemDesc_ok (types := [2]) (hq.flat hf) htable ((hq.descAddr sel).trans hla) hs (by simp [htype]) hp
  obtain ⟨c, d, rfl, -⟩ := hq.trans hu
  rw [M.bind_ok he, htype] at ht
  exact ⟨_, d, ht⟩

/-- LTR loads the descriptor of an available TSS, and marks it busy (R502). -/
theorem ltrOp_loads {la : Word} (hnull : nullSel sel = false)
    (htable : sel.getLsbD 2 = false) (hla : s.descAddr sel = some la) (hs : (descAt s la).attr.s = false)
    (htype : (descAt s la).attr.typ = 1 ∨ (descAt s la).attr.typ = 9) (hp : (descAt s la).attr.p = true) :
    ∃ t, ltrOp p rm s = .ok () t ∧
      t = { s with
        sys := { s.sys with tr := sysLoad sel (descAt s la) ((descAt s la).attr.typ ||| 2) }, mem := t.mem, cache := t.cache
        draws := t.draws } ∧
      ∀ a, t.mem.read a = if a = s.sysAddr la 5 then s.mem.read a ||| 2 else s.mem.read a := by
  obtain ⟨t, hq, ht⟩ := ltrOp_flat hf hm hl h hsel
  rw [if_neg (by simp [hnull])] at ht
  rw [← hq.descAt] at hs htype hp ⊢
  obtain ⟨u, hu, he⟩ := systemDesc_ok (types := [1, 9]) (hq.flat hf) htable ((hq.descAddr sel).trans hla) hs
    (by simpa using htype) hp
  rw [M.bind_ok he, ← hu.descAt] at ht
  rw [← hu.descAt]
  have hqu := hq.trans hu
  have hflat := hqu.flat hf
  obtain ⟨c, d, rfl, -⟩ := hqu
  obtain ⟨w, hw, ew, hmem⟩ := loadTss_flat (sel := sel) la hflat hm
  exact ⟨w, ht.trans hw, ew, hmem⟩

/-- LLDT raises the fault of a descriptor that is not that of a present LDT (R503). -/
theorem lldtOp_fault {v : Byte} (hnull : nullSel sel = false) (hv : systemFault s sel [2] = some v) :
    ∃ t, Quiet s t ∧ lldtOp p rm s = .error (.exc (Exc.fault v (some (selErr sel)))) t := by
  obtain ⟨t, hq, ht⟩ := lldtOp_flat hf hm hl h hsel
  obtain ⟨u, hu, he⟩ := systemDesc_fault (hq.flat hf) ((hq.systemFault sel [2]).trans hv)
  rw [if_neg (by simp [hnull]), M.bind_error he] at ht
  exact ⟨u, hq.trans hu, ht⟩

/-- LTR raises the fault of a descriptor that is not that of a present available TSS (R502). -/
theorem ltrOp_fault {v : Byte} (hnull : nullSel sel = false) (hv : systemFault s sel [1, 9] = some v) :
    ∃ t, Quiet s t ∧ ltrOp p rm s = .error (.exc (Exc.fault v (some (selErr sel)))) t := by
  obtain ⟨t, hq, ht⟩ := ltrOp_flat hf hm hl h hsel
  obtain ⟨u, hu, he⟩ := systemDesc_fault (hq.flat hf) ((hq.systemFault sel [1, 9]).trans hv)
  rw [if_neg (by simp [hnull]), M.bind_error he] at ht
  exact ⟨u, hq.trans hu, ht⟩

/-- LTR raises GP(0) for a null selector (R502). -/
theorem ltrOp_null (hnull : nullSel sel = true) :
    ∃ t, Quiet s t ∧ ltrOp p rm s = .error (.exc (Exc.fault vGP (some 0))) t := by
  obtain ⟨t, hq, ht⟩ := ltrOp_flat hf hm hl h hsel
  rw [if_pos hnull] at ht
  exact ⟨t, hq, ht⟩

end

/-- A fault after nothing but reads. -/
theorem raises_of_error {i : Instr} {m : M Unit} {s : State} {v : Byte} {code : Half} (hi : exec i s = run m s)
    (h : ∃ t, Quiet s.advance t ∧ m s.advance = .error (.exc (Exc.fault v (some code))) t) : raises i s v code := by
  obtain ⟨t, hq, ht⟩ := h
  exact ⟨t, hi.trans (run_exc ht), hq.mem⟩

theorem exec_lldt (p : Pfx) (rm : RM) (s : State) : exec (.lldtEw p rm) s = run (lldtOp p rm) s := rfl
theorem exec_ltr (p : Pfx) (rm : RM) (s : State) : exec (.ltrEw p rm) s = run (ltrOp p rm) s := rfl

end Sys2Proof.Machine

open Sys2Proof Sys2Proof.Machine

/-- Settles O41: both read the operand and load one register. -/
theorem tableRegisterResult : Obligations.TableRegisterResult := by
  unfold Obligations.TableRegisterResult
  intro p m s hf hl h
  exact ⟨run_loadTable_flat (fun v r => { r with gdtr := v }) hf hl h, run_loadTable_flat (fun v r => { r with idtr := v }) hf hl h⟩

/-- Settles O42: what LLDT and LTR do with a null selector, a descriptor they may load, and one they may not. -/
theorem systemSegmentResult : Obligations.SystemSegmentResult := by
  unfold Obligations.SystemSegmentResult
  intro p rm la s hf hm hl h
  have hsel : s.advance.get .w (placeOf p s.gpr rm) = s.get .w (placeOf p s.gpr rm) := advance_get ..
  dsimp only
  refine ⟨fun hnull => ?_, fun hnull htable hla hs hp => ⟨fun htype => ?_, fun htype => ?_⟩, fun hnull => ?_,
    fun hnull => ⟨fun v hv => ?_, fun v hv => ?_⟩⟩
  · obtain ⟨c, d, e⟩ := lldtOp_null (s := s.advance) hf hm hl h hsel hnull
    refine ⟨_, (exec_lldt p rm s).trans (run_ok e), rfl, rfl, fun x hx => ?_⟩
    unfold State.descAddr
    rw [if_pos hx]
    exact if_pos hnull
  · obtain ⟨c, d, e⟩ := lldtOp_loads (s := s.advance) hf hm hl h hsel hnull htable hla hs htype hp
    exact ⟨_, (exec_lldt p rm s).trans (run_ok e), rfl⟩
  · obtain ⟨t, e, ht, hmem⟩ := ltrOp_loads (s := s.advance) hf hm hl h hsel hnull htable hla hs htype hp
    exact ⟨t, (exec_ltr p rm s).trans (run_ok e), ht, hmem⟩
  · exact raises_of_error (exec_ltr p rm s) (ltrOp_null (s := s.advance) hf hm hl h hsel hnull)
  · exact raises_of_error (exec_lldt p rm s) (lldtOp_fault (s := s.advance) hf hm hl h hsel hnull hv)
  · exact raises_of_error (exec_ltr p rm s) (ltrOp_fault (s := s.advance) hf hm hl h hsel hnull hv)

end

section
/-! PROOFS. O37: INVD puts back what main memory held, line by line; WBINVD copies back one modified line at a time, so that each has a
cycle of its own once none is left; INVLPG drops translations and linear tags, and nothing else (R481 to R484). -/
namespace Sys2Proof.Machine

open Sys2Proof

/-! ### HLT -/

theorem afterCycles_special (old : List CacheEvent) (be : Byte) (addr data : Word) :
    afterCycles old [.special be addr data] =
      ((BusEvent.special be addr data).cycles.map CacheEvent.cycle).reverse ++ old := rfl

/-- A level 0 instruction that is one update of the state. -/
theorem run_privileged_update {f : State → State} {s : State} (hl : s.level = 0) :
    run (privileged >>= fun _ => update f) s = .next (f s.advance) :=
  run_ok (M.bind_ok (privileged_ok (s := s.advance) hl))

theorem exec_hlt {s : State} (p : Pfx) (hl : s.level = 0) :
    exec (.hlt p) s = .next ((special 0xFB 0 s.advance).setClock .halt) := run_privileged_update hl

theorem exec_invd {s : State} (p : Pfx) (hl : s.level = 0) :
    exec (.invd p) s = .next (serialize (special 0xFD 0 (invalidateCaches s.advance))) := run_privileged_update hl

theorem exec_wbinvd {s : State} (p : Pfx) (hl : s.level = 0) :
    exec (.wbinvd p) s = .next (special 0xFD 0 (special 0xF7 0 (flushCaches (note .serial s.advance)))) :=
  run_privileged_update hl

theorem exec_invlpg {s : State} (p : Pfx) (m : MemOp) (hl : s.level = 0) :
    exec (.invlpgM p m) s = .next (serialize (flushPage (s.linear (segFor p m) (effAddr m s.gpr)) s.advance)) :=
  run_privileged_update hl

/-! ### INVD -/

/-- Inside a run of bytes that is written the run is read back. -/
theorem Memory.read_writes_in (m : Memory) (a b : Nat) (vs : List Byte) (hlow : a ≤ b) (hhigh : b < a + vs.length) :
    (m.writes a vs).read b = vs.getD (b - a) 0 := by
  induction vs generalizing m a with
  | nil => exact absurd hhigh (by simpa using hlow)
  | cons v t ih =>
    rw [List.length_cons] at hhigh
    rw [Memory.writes]
    by_cases hb : b = a
    · subst hb
      rw [Memory.read_writes_out _ _ _ _ (.inl (Nat.lt_succ_self b)), Memory.read_write, if_pos rfl, Nat.sub_self]
      rfl
    · rw [ih _ _ (by omega) (by omega), show b - a = b - (a + 1) + 1 by omega]
      rfl

/-- An address reads as before where no line hides main memory, else as main memory held it under one that does. -/
def Uncovered (ls : List DLine) (m m' : Memory) (a : Nat) : Prop :=
  (m'.read a = m.read a ∧ ∀ l ∈ ls, ∀ bs, ¬ l.hides bs a) ∨
    ∃ l ∈ ls, ∃ bs, l.hides bs a ∧ m'.read a = bs.getD (a - 32 * l.line) 0

theorem restoreLine_uncovered (m : Memory) (l : DLine) (a : Nat) : Uncovered [l] m (restoreLine m l) a := by
  unfold Uncovered restoreLine
  simp only [List.mem_singleton, forall_eq, exists_eq_left]
  split
  · next hnone => exact .inl ⟨rfl, fun bs h => by cases hnone.symm.trans h.1⟩
  · next bs hback =>
    by_cases ha : 32 * l.line ≤ a ∧ a < 32 * l.line + bs.length
    · refine .inr ⟨bs, ⟨hback, ha⟩, ?_⟩
      rw [Nat.mul_comm l.line, Memory.read_writes_in _ _ _ _ ha.1 ha.2]
    · refine .inl ⟨Memory.read_writes_out _ _ _ _ (by omega), fun cs h => ha ?_⟩
      obtain ⟨hcs, hin⟩ := h
      cases hback.symm.trans hcs
      exact hin

theorem restoreLines_uncovered (ls : List DLine) (a : Nat) : ∀ m, Uncovered ls m (ls.foldl restoreLine m) a := by
  induction ls with
  | nil => exact fun m => .inl ⟨rfl, by simp⟩
  | cons l ls ih =>
    intro m
    rw [List.foldl_cons]
    rcases ih (restoreLine m l) with ⟨hread, hls⟩ | ⟨k, hk, hidden⟩
    · unfold Uncovered
      rw [hread]
      rcases restoreLine_uncovered m l a with ⟨hread, hl⟩ | ⟨k, hk, hidden⟩
      · exact .inl ⟨hread, List.forall_mem_cons.2 ⟨hl l (List.mem_singleton_self l), hls⟩⟩
      · exact .inr ⟨k, List.mem_cons.2 (.inl (List.mem_singleton.1 hk)), hidden⟩
    · exact .inr ⟨k, List.mem_cons_of_mem _ hk, hidden⟩

theorem invalidateCaches_eq (s : State) :
    invalidateCaches s = { s with
      mem := s.cache.dlines.foldl restoreLine s.mem
      cache := { s.cache with dlines := [], ilines := [], foreign := false } } := rfl

/-! ### INVLPG -/

/-- A tag that is not in the page, of either size, is not in its 4-Kbyte part. -/
theorem tag_outside {g la size : Nat} (hsize : size = 4194304 ∨ size = 4096) (h : g * 32 / size ≠ la / size) :
    g * 32 / 4096 ≠ la / 4096 := by
  rcases hsize with rfl | rfl <;> omega

/-- The linear tags that INVLPG leaves: those outside the page (R153, log 35). -/
def outsidePage (size : Nat) (la : Word) (t : Option LineTag) : Option LineTag :=
  t.filter fun t => t.la * 32 / size != la.toNat / size

theorem flushPage_eq (la : Word) (s : State) : ∃ size, (size = 4194304 ∨ size = 4096) ∧
    flushPage la s = { s with cache := { s.cache with
      tlb := s.cache.tlb.filter fun e => !(if e.big then e.page == la.toNat / 4194304 else e.page == la.toNat / 4096)
      dlines := s.cache.dlines.map fun l => { l with ltag := outsidePage size la l.ltag }
      ilines := s.cache.ilines.map fun l => { l with ltag := outsidePage size la l.ltag } } } := by
  refine ⟨_, ?_, rfl⟩
  split <;> simp

theorem outsidePage_some {size : Nat} {la : Word} {t : Option LineTag} {g : LineTag} (hsize : size = 4194304 ∨ size = 4096)
    (h : outsidePage size la t = some g) : g.la * 32 / 4096 ≠ la.toNat / 4096 := by
  obtain ⟨-, hg⟩ := Option.filter_eq_some_iff.1 h
  exact tag_outside hsize (by simpa using hg)

theorem maps_iff (e : TlbEntry) (la : Word) :
    e.maps la ↔ (if e.big then e.page == la.toNat / 4194304 else e.page == la.toNat / 4096) = true := by
  unfold TlbEntry.maps
  split <;> exact beq_iff_eq.symm

/-! ### WBINVD, whatever inquire cycles arrive -/

/-- An operation on the data and code lines leaves the translations and the parity check of the last inquire cycle as they are. -/
def SameRest (s t : State) : Prop := t.cache.tlb = s.cache.tlb ∧ t.cache.apchk = s.cache.apchk

theorem SameRest.trans {s t u : State} (h : SameRest s t) (k : SameRest t u) : SameRest s u :=
  ⟨k.1.trans h.1, k.2.trans h.2⟩

theorem inquireData_sameRest (line : Nat) (inv : Bool) (s : State) : SameRest s (inquireData line inv s) := by
  have driven (c d : Bool) (b : BusUnit) :
      SameRest s (if c then s else if d then s.setBiu b else driveSnooped .snooped line s) := by
    cases c <;> cases d <;> exact ⟨rfl, rfl⟩
  unfold inquireData
  split
  · exact ⟨rfl, rfl⟩
  · dsimp only
    split
    · exact (driven _ _ _).trans ⟨rfl, rfl⟩
    · exact (driven _ _ _).trans ⟨rfl, rfl⟩

theorem addMark_rest (m : CodeMark) (c : Caches) : (addMark m c).tlb = c.tlb ∧ (addMark m c).apchk = c.apchk := by
  unfold addMark
  split <;> exact ⟨rfl, rfl⟩

theorem markLine_rest (m : Memory) (l : ILine) (c : Caches) : (markLine m l c).tlb = c.tlb ∧ (markLine m l c).apchk = c.apchk := by
  unfold markLine
  split
  · exact ⟨rfl, rfl⟩
  · refine List.foldlRecOn _ _ (motive := fun d : Caches => d.tlb = c.tlb ∧ d.apchk = c.apchk) ⟨rfl, rfl⟩ fun d hd k _ => ?_
    dsimp only
    split
    · exact hd
    · obtain ⟨ht, ha⟩ := addMark_rest { pa := l.line * 32 + k, la := none, old := _, jumped := false } d
      exact ⟨ht.trans hd.1, ha.trans hd.2⟩

theorem inquireCode_sameRest (line : Nat) (inv : Bool) (s : State) : SameRest s (inquireCode line inv s) := by
  unfold inquireCode
  split
  · exact ⟨rfl, rfl⟩
  · split
    · exact ⟨rfl, rfl⟩
    · exact markLine_rest ..

theorem snoopLine_sameRest (line : Nat) (inv : Bool) (s : State) : SameRest s (snoopLine line inv s) := by
  unfold snoopLine
  split
  · exact ⟨rfl, rfl⟩
  · exact (inquireData_sameRest line _ s).trans (inquireCode_sameRest line _ _)

theorem snoopDuring_sameRest (q : Snoop) (s : State) : SameRest s (snoopDuring q s) := by
  unfold snoopDuring
  dsimp only
  split <;> exact snoopLine_sameRest q.line q.inv s

theorem answerFrom_sameRest (f : Snoop → Bool) (qs : List Snoop) : ∀ (gap : Option Nat) (s : State),
    SameRest s (answerFrom f gap qs s) := by
  induction qs with
  | nil => exact fun _ _ => ⟨rfl, rfl⟩
  | cons q qs ih =>
    intro gap s
    unfold answerFrom
    split
    · exact ih _ (keepSnoop q s)
    · split
      · exact ih _ s
      · exact (snoopDuring_sameRest q s).trans (ih _ (keepSnoop _ _))

theorem answerArrived_sameRest (f : Snoop → Bool) (s : State) : SameRest s (answerArrived f s) := by
  unfold answerArrived
  split
  · exact ⟨rfl, rfl⟩
  · exact answerFrom_sameRest _ _ _ _

theorem flushOne_sameRest (first : Nat) (rest : List Nat) (s : State) : SameRest s (flushOne first rest s) := by
  unfold flushOne flushLine
  dsimp only
  split
  · exact ⟨rfl, rfl⟩
  · split <;> exact ⟨rfl, rfl⟩

/-- What copying back and the inquire cycles that it meets can change, where no clean line differs from main memory. -/
structure CopiedBack (s t : State) : Prop where
  eq : t = { s with cache := t.cache, biu := t.biu, draws := t.draws }
  foreign : t.cache.foreign = false
  rest : SameRest s t

/-- Only these parts of the caches change. -/
theorem CopiedBack.cache_eq {s t : State} (h : CopiedBack s t) (hf : s.cache.foreign = false) :
    t.cache = { t.cache with tlb := s.cache.tlb, foreign := s.cache.foreign, apchk := s.cache.apchk } := by
  obtain ⟨-, hforeign, htlb, hapchk⟩ := h
  rw [← htlb, ← hapchk, hf, ← hforeign]

theorem CopiedBack.refl {s : State} (h : s.cache.foreign = false) : CopiedBack s s := ⟨rfl, h, rfl, rfl⟩

theorem CopiedBack.trans {s t u : State} (h : CopiedBack s t) (k : CopiedBack t u) : CopiedBack s u :=
  ⟨k.eq.trans (congrArg (fun x : State => { x with cache := u.cache, biu := u.biu, draws := u.draws }) h.eq), k.foreign,
    h.rest.trans k.rest⟩

theorem answerArrived_copiedBack (f : Snoop → Bool) {s : State} (h : s.cache.foreign = false) :
    CopiedBack s (answerArrived f s) := by
  obtain ⟨⟨m, c, b, e⟩, hkeep⟩ := answerArrived_snooped f s
  have hrest := answerArrived_sameRest f s
  rw [e] at hrest hkeep ⊢
  obtain ⟨rfl, hforeign⟩ := hkeep h
  exact ⟨rfl, hforeign, hrest⟩

theorem flushOne_copiedBack (first : Nat) (rest : List Nat) {s : State} (h : s.cache.foreign = false) :
    CopiedBack s (flushOne first rest s) := by
  obtain ⟨e, hforeign, -⟩ := flushOne_eq first rest s
  refine ⟨?_, hforeign.trans h, flushOne_sameRest first rest s⟩
  rw [e]

theorem copyAll_copiedBack (n : Nat) : ∀ (done : List Nat) {s : State}, s.cache.foreign = false →
    CopiedBack s (copyAll n done s) := by
  induction n with
  | zero => exact fun _ _ h => CopiedBack.refl h
  | succ n ih =>
    intro done s h
    have hanswer := answerArrived_copiedBack (fun q => decide (q.after < s.cache.driven)) h
    unfold copyAll
    dsimp only
    split
    · exact hanswer
    · next first rest _ =>
      have hflush := hanswer.trans (flushOne_copiedBack first rest hanswer.foreign)
      exact hflush.trans (ih _ hflush.foreign)

theorem emptyCaches_eq {s : State} (h : s.cache.foreign = false) :
    emptyCaches s = { s with cache := { s.cache with dlines := [], ilines := [], foreign := false } } := by
  unfold emptyCaches
  rw [if_neg (by rw [h]; decide)]
  rfl

/-- The machine when WBINVD has copied everything back and has still to empty the caches (R483). -/
def State.drained (s : State) : State :=
  let t := copyAll s.cache.dlines.length [] s
  answerArrived (fun q => decide (q.after ≤ t.cache.driven)) t

theorem drained_copiedBack {s : State} (h : s.cache.foreign = false) : CopiedBack s s.drained := by
  have hcopy := copyAll_copiedBack s.cache.dlines.length [] h
  exact hcopy.trans (answerArrived_copiedBack _ hcopy.foreign)

/-- The end of WBINVD leaves both caches empty. -/
theorem flushCaches_eq {s : State} (h : s.cache.foreign = false) :
    flushCaches s = { s.drained with cache := { s.drained.cache with dlines := [], ilines := [], foreign := false } } :=
  emptyCaches_eq (s := s.drained.setCache { s.drained.cache with dlines := _ }) (drained_copiedBack h).foreign

/-! ### WBINVD without inquire cycles -/

/-- What copying back changes where no inquire cycle arrives: lines, the record, and the count of free values. -/
def CopiedAlone (s t : State) : Prop :=
  t = { s with cache := { s.cache with dlines := t.cache.dlines, events := t.cache.events }, draws := t.draws }

theorem CopiedAlone.trans {s t u : State} (h : CopiedAlone s t) (k : CopiedAlone t u) : CopiedAlone s u :=
  Eq.trans k (congrArg (fun x : State =>
    { x with cache := { x.cache with dlines := u.cache.dlines, events := u.cache.events }, draws := u.draws }) h)

theorem CopiedAlone.writebackCycle {s t : State} (h : CopiedAlone s t) (line : Nat) :
    writebackCycle t line = writebackCycle s line := by
  unfold CopiedAlone at h
  rw [h]
  rfl

theorem dFind_line {c : Caches} {line : Nat} {l : DLine} (h : c.dFind line = some l) : l.line = line :=
  beq_iff_eq.1 (List.find?_some (p := fun x : DLine => x.line == line) h)

/-- Copying a line back changes that line alone. -/
theorem flushLine_alone (line : Nat) {s : State} (h : s.cache.snoops = []) :
    ∃ g : DLine → DLine, (∀ l, (g l).line = l.line) ∧ (∀ l, l.line ≠ line → g l = l) ∧
      flushLine line s = { s with cache := { s.cache with
        dlines := s.cache.dlines.map g, events := .cycle (writebackCycle s line) :: s.cache.events } } := by
  have hback : writeBack line s = { s with cache := { s.cache with
      events := .cycle (writebackCycle s line) :: s.cache.events } } := by
    have hmeet (driven : Nat) : meetWriteback line driven s.cache.snoops = s.cache.snoops := by rw [h]; rfl
    rw [writeBack_eq, hmeet]
  have hsame : ∃ g : DLine → DLine, (∀ l, (g l).line = l.line) ∧ (∀ l, l.line ≠ line → g l = l) ∧
      writeBack line s = { s with cache := { s.cache with
        dlines := s.cache.dlines.map g, events := .cycle (writebackCycle s line) :: s.cache.events } } :=
    ⟨id, fun _ => rfl, fun _ _ => rfl, by rw [hback, List.map_id]⟩
  unfold flushLine
  dsimp only
  split
  · exact hsame
  · next l hfind =>
    split
    · exact hsame
    · obtain rfl := dFind_line hfind
      refine ⟨fun x => if x.line == l.line then { l with back := none } else x, fun x => ?_, fun x hx => ?_, ?_⟩
      · dsimp only
        split
        · next hx => exact (beq_iff_eq.1 hx).symm
        · rfl
      · exact if_neg (by simpa using hx)
      · rw [hback]
        rfl

/-- What is left to copy back of a list of lines. -/
def todoOf (ls : List DLine) (done : List Nat) : List Nat :=
  (ls.filter fun l => l.mesi == .modified && !done.contains l.line).map (·.line)

theorem flushTodo_eq (s : State) (done : List Nat) : s.flushTodo done = todoOf s.cache.dlines done := rfl

theorem mem_todoOf_nil {ls : List DLine} {l : DLine} (h : l ∈ ls) (hm : l.mesi = .modified) : l.line ∈ todoOf ls [] :=
  List.mem_map_of_mem (List.mem_filter.2 ⟨h, by simp [hm]⟩)

theorem todoOf_length_le (ls : List DLine) (done : List Nat) : (todoOf ls done).length ≤ ls.length := by
  rw [todoOf, List.length_map]
  exact List.length_filter_le ..

theorem todoOf_map (ls : List DLine) (done : List Nat) (line : Nat) {g : DLine → DLine} (hline : ∀ l, (g l).line = l.line)
    (hother : ∀ l, l.line ≠ line → g l = l) :
    todoOf (ls.map g) (line :: done) = (todoOf ls done).filter (· != line) := by
  induction ls with
  | nil => rfl
  | cons l ls ih =>
    unfold todoOf at ih ⊢
    by_cases h : l.line = line
    · rw [List.map_cons, List.filter_cons_of_neg (by simp [hline, h]), ih, List.filter_cons]
      split
      · rw [List.map_cons, List.filter_cons_of_neg (by simp [h])]
      · rfl
    · rw [List.map_cons, hother l h, List.filter_cons, List.filter_cons]
      have hsame : (line :: done).contains l.line = done.contains l.line := by simp [h]
      rw [hsame]
      split
      · rw [List.map_cons, List.map_cons, List.filter_cons_of_pos (by simpa using h), ih]
      · exact ih

/-- One line copied back: it is in the record, and what is left to do is the rest. -/
theorem flushOne_alone (first : Nat) (rest done : List Nat) {s : State} (h : s.cache.snoops = []) :
    CopiedAlone s (flushOne first rest s) ∧
      (flushOne first rest s).flushTodo (chooseLine s.draws first rest :: done) =
        (s.flushTodo done).filter (· != chooseLine s.draws first rest) := by
  obtain ⟨g, hline, hother, e⟩ := flushLine_alone (chooseLine s.draws first rest) (s := s.setDraws (s.draws + rest.length)) h
  rw [flushOne, e, flushTodo_eq, flushTodo_eq]
  exact ⟨rfl, todoOf_map s.cache.dlines done _ hline hother⟩

/-- With fuel for what is left to do, every line of it has a writeback cycle of its own in the record, which loses nothing. -/
theorem copyAll_alone (n : Nat) : ∀ (done : List Nat) {s : State}, s.cache.snoops = [] → (s.flushTodo done).length ≤ n →
    CopiedAlone s (copyAll n done s) ∧ s.cache.events ⊆ (copyAll n done s).cache.events ∧
      ∀ line ∈ s.flushTodo done, .cycle (writebackCycle s line) ∈ (copyAll n done s).cache.events := by
  induction n with
  | zero =>
    intro done s _ hn
    rw [List.eq_nil_of_length_eq_zero (Nat.le_zero.1 hn)]
    exact ⟨rfl, fun _ => id, fun _ h => nomatch h⟩
  | succ n ih =>
    intro done s h hn
    unfold copyAll
    dsimp only
    rw [answerArrived_nil h]
    cases htodo : s.flushTodo done with
    | nil => exact ⟨rfl, fun _ => id, fun _ h => nomatch h⟩
    | cons first rest =>
      dsimp only
      obtain ⟨halone, hleft⟩ := flushOne_alone first rest done h
      have hchosen := chooseLine_mem first rest s.draws
      obtain ⟨-, -, hevents⟩ := flushOne_eq first rest s
      rw [htodo] at hleft hn
      generalize chooseLine s.draws first rest = line at hleft hchosen hevents ⊢
      generalize flushOne first rest s = t at halone hleft hevents ⊢
      have hsnoops : t.cache.snoops = [] := by
        unfold CopiedAlone at halone
        rw [halone]
        exact h
      have hless : (t.flushTodo (line :: done)).length < (first :: rest).length := by
        rw [hleft]
        exact List.length_filter_lt_length_iff_exists.2 ⟨line, hchosen, by simp⟩
      obtain ⟨hcopied, hkeep, hcycles⟩ := ih (line :: done) hsnoops (by omega)
      refine ⟨halone.trans hcopied, fun e he => hkeep ?_, fun x hx => ?_⟩
      · rw [hevents]
        exact List.mem_cons_of_mem _ he
      · by_cases hxline : x = line
        · subst hxline
          refine hkeep ?_
          rw [hevents]
          exact List.mem_cons_self
        · rw [← halone.writebackCycle]
          refine hcycles x ?_
          rw [hleft]
          exact List.mem_filter.2 ⟨hx, by simpa using hxline⟩

theorem CopiedAlone.snoops {s t : State} (h : CopiedAlone s t) : t.cache.snoops = s.cache.snoops := by
  unfold CopiedAlone at h
  rw [h]

/-- Without inquire cycles WBINVD copies every modified line back by a cycle of its own. -/
theorem drained_alone {s : State} (h : s.cache.snoops = []) : CopiedAlone s s.drained ∧
    ∀ l ∈ s.cache.dlines, l.mesi = .modified → .cycle (writebackCycle s l.line) ∈ s.drained.cache.events := by
  obtain ⟨halone, -, hcycles⟩ := copyAll_alone s.cache.dlines.length [] h (todoOf_length_le ..)
  unfold State.drained
  dsimp only
  rw [answerArrived_nil (halone.snoops.trans h)]
  exact ⟨halone, fun l hl hm => hcycles l.line (mem_todoOf_nil hl hm)⟩

/-- WBINVD copies everything back, empties both caches, and then drives its two special cycles (R483). -/
theorem wbinvd_eq {s : State} (hf : s.cache.foreign = false) :
    special 0xFD 0 (special 0xF7 0 (flushCaches s)) = { s with
      bus := .special 0xFD 0 0 :: .special 0xF7 0 0 :: s.bus, draws := s.drained.draws, biu := s.drained.biu
      cache := { s.cache with
        dlines := [], ilines := [], prefetch := [], marks := []
        events := afterCycles s.drained.cache.events [.special 0xF7 0 0, .special 0xFD 0 0]
        snoops := s.drained.cache.snoops, hit := s.drained.cache.hit, hitm := s.drained.cache.hitm } } := by
  have hback := drained_copiedBack hf
  rw [flushCaches_eq hf, special_eq, special_eq]
  generalize s.drained = t at hback ⊢
  have hcache := hback.cache_eq hf
  obtain ⟨c, b, d, rfl⟩ : ∃ c b d, t = { s with cache := c, biu := b, draws := d } := ⟨_, _, _, hback.eq⟩
  dsimp only at hcache ⊢
  rw [hcache, hf]
  rfl

theorem mem_afterCycles {e : CacheEvent} {old : List CacheEvent} (es : List BusEvent) (h : e ∈ old) : e ∈ afterCycles old es := by
  refine List.foldlRecOn es _ (motive := (e ∈ ·)) h fun l hl b _ => ?_
  exact List.foldlRecOn b.cycles _ (motive := (e ∈ ·)) hl fun _ hl _ _ => List.mem_cons_of_mem _ hl

/-- What WBINVD keeps where no inquire cycle arrives, and the cycles it drives. -/
theorem drained_undisturbed {s : State} (h : s.cache.snoops = []) :
    s.drained.biu = s.biu ∧ s.drained.cache.snoops = [] ∧ s.drained.cache.hit = s.cache.hit ∧
      s.drained.cache.hitm = s.cache.hitm := by
  have halone := (drained_alone h).1
  have hsnoops := halone.snoops.trans h
  unfold CopiedAlone at halone
  refine ⟨?_, hsnoops, ?_, ?_⟩ <;> rw [halone]

theorem flushPage_tlb (la : Word) (s : State) (e : TlbEntry) :
    e ∈ (flushPage la s).cache.tlb ↔ e ∈ s.cache.tlb ∧ ¬ e.maps la := by
  obtain ⟨size, -, h⟩ := flushPage_eq la s
  rw [h, maps_iff]
  exact List.mem_filter.trans (and_congr_right' (by rw [Bool.not_eq_true', Bool.not_eq_true]))

theorem flushPage_sameLines (la : Word) (s : State) : SameLines s (flushPage la s) := by
  obtain ⟨size, -, h⟩ := flushPage_eq la s
  rw [h]
  exact ⟨by rw [List.map_map]; rfl, by rw [List.map_map]; rfl⟩

theorem flushPage_noTag (la : Word) (s : State) : (flushPage la s).cache.noTag la := by
  obtain ⟨size, hsize, h⟩ := flushPage_eq la s
  rw [h]
  refine ⟨fun l hl g hg => ?_, fun l hl g hg => ?_⟩
  · obtain ⟨k, -, rfl⟩ := List.mem_map.1 hl
    exact outsidePage_some hsize hg
  · obtain ⟨k, -, rfl⟩ := List.mem_map.1 hl
    exact outsidePage_some hsize hg

end Sys2Proof.Machine

open Sys2Proof Sys2Proof.Machine

/-- Settles O37: HLT and INVD update by update, WBINVD by what its copying back keeps, INVLPG by what its filters leave. -/
theorem cacheControlResult : Obligations.CacheControlResult := by
  unfold Obligations.CacheControlResult
  intro p m s hl
  refine ⟨?_, ?_, fun hf => ?_, ?_⟩
  · rw [exec_hlt p hl, special_eq]
    rfl
  · rw [exec_invd p hl, serialize_eq, special_eq, invalidateCaches_eq]
    exact ⟨_, rfl, rfl, fun a => restoreLines_uncovered s.cache.dlines a s.mem⟩
  · rw [exec_wbinvd p hl, wbinvd_eq (s := note .serial s.advance) hf]
    refine ⟨_, rfl, rfl, fun hsnoops => ?_⟩
    obtain ⟨hbiu, hnone, hhit, hhitm⟩ := drained_undisturbed (s := note .serial s.advance) hsnoops
    obtain ⟨-, hcycles⟩ := drained_alone (s := note .serial s.advance) hsnoops
    exact ⟨hbiu, hnone, hhit, hhitm, fun l hmem hmod => mem_afterCycles _ (hcycles l hmem hmod)⟩
  · have htlb := flushPage_tlb (s.linear (segFor p m) (effAddr m s.gpr)) s.advance
    have hlines := flushPage_sameLines (s.linear (segFor p m) (effAddr m s.gpr)) s.advance
    have htag := flushPage_noTag (s.linear (segFor p m) (effAddr m s.gpr)) s.advance
    obtain ⟨size, -, h⟩ := flushPage_eq (s.linear (segFor p m) (effAddr m s.gpr)) s.advance
    rw [exec_invlpg p m hl, serialize_eq]
    refine ⟨_, rfl, ?_, htlb, hlines, htag⟩
    rw [h]
    rfl

end

section
/-! PROOFS. O38: the permission check reads two words of the TSS and disturbs the caches alone; the cycles of the access are those of
its parts, the lower one first in IN and last in OUT (R103, R192, R485 to R487). -/
namespace Sys2Proof.Machine

open Sys2Proof

/-! ### The permission check -/

theorem ioBits_iff (w : Half) (first n : Nat) : ioBits w first n = true ↔ ∀ k, k < n → w.getLsbD (first + k) = false := by
  induction n with
  | zero => exact ⟨fun _ k hk => absurd hk (Nat.not_lt_zero k), fun _ => rfl⟩
  | succ n ih =>
    rw [ioBits, Bool.and_eq_true, Bool.not_eq_true', ih, Nat.forall_lt_succ_right]
    exact and_comm

/-- The ports that need no bitmap (R486). -/
theorem freePorts_iff (s : State) : (s.realStyle || (!s.flags.vm && decide (s.level ≤ s.flags.iopl.toNat))) = true ↔
    s.pe = false ∨ s.smm.active = true ∨ (s.mode = .prot ∧ s.level ≤ s.flags.iopl.toNat) := by
  have hprot (hpe : s.pe = true) : s.mode = .prot ↔ s.flags.vm = false := by
    unfold State.mode
    rw [if_pos hpe]
    cases s.flags.vm <;> simp
  unfold State.realStyle
  cases hpe : s.pe with
  | false => simp
  | true => simp [hprot hpe]

theorem check_passes {c : Bool} (h : c = true) (v : Byte) (e : Option Half) (s : State) : check c v e s = .ok () s := by
  rw [h]
  rfl

theorem check_raises {c : Bool} (h : c = false) (v : Byte) (e : Option Half) (s : State) :
    check c v e s = .error (.exc (Exc.fault v e)) s := by
  rw [h]
  rfl

/-- The bitmap allows the ports, or the check raises GP(0). -/
theorem ioBitmap_flat (port : Half) (n : Nat) {s : State} (hf : s.flat = true) : ∃ t, Quiet s t ∧
    ((s.bitmapAllows port n ∧ ioBitmap port n s = .ok () t) ∨
      (¬ s.bitmapAllows port n ∧ ioBitmap port n s = .error (.exc (Exc.fault vGP (some 0))) t)) := by
  have htype : (!s.sys.tr.attr.s && (s.sys.tr.attr.typ == 9 || s.sys.tr.attr.typ == 11)) = true ↔
      s.sys.tr.attr.s = false ∧ (s.sys.tr.attr.typ = 9 ∨ s.sys.tr.attr.typ = 11) := by simp
  have hlimit : decide (s.ioBitByte port + 1 ≤ s.sys.tr.byteLimit) = true ↔ s.ioBitByte port + 1 ≤ s.sys.tr.byteLimit :=
    decide_eq_true_iff
  have hbits := ioBits_iff (s.tssHalf (s.ioBitByte port)) (port.toNat % 8) n
  obtain ⟨t, hst, et⟩ := sysVal_flat (w := 16) (la := s.sys.tr.base + 0x66) (n := 2) hf
  obtain ⟨u, htu, eu⟩ := sysVal_flat (w := 16) (la := s.sys.tr.base + BitVec.ofNat 32 (s.ioBitByte port)) (n := 2) (hst.flat hf)
  rw [hst.sysBytes] at eu
  unfold State.bitmapAllows
  rw [← hlimit, ← hbits]
  by_cases h1 : s.sys.tr.attr.s = false ∧ (s.sys.tr.attr.typ = 9 ∨ s.sys.tr.attr.typ = 11)
  · have e1 := check_passes (htype.2 h1) vGP (some 0) s
    cases h2 : decide (s.ioBitByte port + 1 ≤ s.sys.tr.byteLimit) with
    | false =>
      exact ⟨t, hst, .inr ⟨fun ⟨_, _, h, _⟩ => Bool.false_ne_true h,
        (M.get_bind ..).trans ((M.bind_ok e1).trans ((M.bind_ok et).trans (M.bind_error (check_raises h2 vGP (some 0) t))))⟩⟩
    | true =>
      have e3 : ioBitmap port n s = check (ioBits (s.tssHalf (s.ioBitByte port)) (port.toNat % 8) n) vGP (some 0) u :=
        (M.get_bind ..).trans ((M.bind_ok e1).trans ((M.bind_ok et).trans
          ((M.bind_ok (check_passes h2 vGP (some 0) t)).trans (M.bind_ok eu))))
      refine ⟨u, hst.trans htu, ?_⟩
      cases h3 : ioBits (s.tssHalf (s.ioBitByte port)) (port.toNat % 8) n with
      | false => exact .inr ⟨fun ⟨_, _, _, h⟩ => Bool.false_ne_true h, e3.trans (check_raises h3 vGP (some 0) u)⟩
      | true => exact .inl ⟨⟨h1.1, h1.2, rfl, rfl⟩, e3.trans (check_passes h3 vGP (some 0) u)⟩
  · have e1 := check_raises (Bool.eq_false_iff.2 (mt htype.1 h1)) vGP (some 0) s
    exact ⟨s, Quiet.refl (State.flat_foreign hf), .inr ⟨fun ⟨hs, ht, _⟩ => h1 ⟨hs, ht⟩, (M.get_bind ..).trans (M.bind_error e1)⟩⟩

/-- The ports may be used, or the check raises GP(0). -/
theorem ioCheck_flat (port : Half) (n : Nat) {s : State} (hf : s.flat = true) : ∃ t, Quiet s t ∧
    ((s.mayIo port n ∧ ioCheck port n s = .ok () t) ∨
      (¬ s.mayIo port n ∧ ioCheck port n s = .error (.exc (Exc.fault vGP (some 0))) t)) := by
  have hfree := freePorts_iff s
  unfold ioCheck State.mayIo
  rw [M.get_bind]
  split
  · next h =>
    refine ⟨s, Quiet.refl (State.flat_foreign hf), .inl ⟨?_, rfl⟩⟩
    rcases hfree.1 h with hpe | hsmm | hprot
    · exact .inl hpe
    · exact .inr (.inl hsmm)
    · exact .inr (.inr (.inl hprot))
  · next h =>
    obtain ⟨t, hq, ⟨hallow, e⟩ | ⟨hdeny, e⟩⟩ := ioBitmap_flat port n hf
    · exact ⟨t, hq, .inl ⟨.inr (.inr (.inr hallow)), e⟩⟩
    · refine ⟨t, hq, .inr ⟨?_, e⟩⟩
      rintro (hpe | hsmm | hprot | hallow)
      · exact h (hfree.2 (.inl hpe))
      · exact h (hfree.2 (.inr (.inl hsmm)))
      · exact h (hfree.2 (.inr (.inr hprot)))
      · exact hdeny hallow

/-! ### The cycles -/

/-- Without an enabled breakpoint none watches the ports (R488). -/
theorem noteIo_flat (port : Half) (n : Nat) {s : State} (h : s.dr.dr7.extractLsb' 0 8 = 0) : noteIo port n s = .ok () s := by
  have hoff (i : Nat) (hi : i < 4) : s.watchesIo i = false := by
    have hbit (j : Nat) (hj : j < 8) : s.dr.dr7.getLsbD j = false := by
      have := congrArg (BitVec.getLsbD · j) h
      simpa [hj] using this
    unfold State.watchesIo DebugRegs.enabled
    rw [hbit _ (by omega), hbit _ (by omega)]
    simp
  unfold noteIo
  rw [M.get_bind, hoff 0 (by decide), hoff 1 (by decide), hoff 2 (by decide), hoff 3 (by decide)]
  rfl

/-- Driving several cycles logs them on the bus, the last one newest. -/
theorem driveAll_eq (es : List BusEvent) : ∀ s : State, ∃ c,
    es.foldl (fun s e => drive e s) s = { s with bus := es.reverse ++ s.bus, cache := c } := by
  induction es with
  | nil => exact fun s => ⟨s.cache, rfl⟩
  | cons e es ih =>
    intro s
    obtain ⟨c, h⟩ := ih (drive e s)
    refine ⟨c, ?_⟩
    rw [List.foldl_cons, h, drive_eq, List.reverse_cons, List.append_assoc]
    rfl

/-- The parts of an access that the statement names are those that the bus carries (R103, R192). -/
theorem ioParts_eq_portParts {port : Half} {n : Nat} {v : Word} (hn : n ≤ 4) (hv : v.toNat < 2 ^ (8 * n)) :
    ioParts port n v = portParts port n v := by
  have hmask (k : Nat) (hk : k ≤ 4) : (v &&& BitVec.ofNat 32 (2 ^ (8 * k) - 1)).toNat = v.toNat % 2 ^ (8 * k) := by
    have hpow : 2 ^ (8 * k) ≤ 2 ^ 32 := Nat.pow_le_pow_right (by decide) (by omega)
    rw [BitVec.toNat_and, BitVec.toNat_ofNat, Nat.mod_eq_of_lt (by omega), Nat.and_two_pow_sub_one_eq_mod]
  have hfit (x : Nat) (hx : x ≤ v.toNat) : x % 2 ^ 32 = x := Nat.mod_eq_of_lt (Nat.lt_of_le_of_lt hx v.isLt)
  unfold ioParts portParts ioFirst
  dsimp only
  split
  · next h =>
    have hle : n ≤ 4 - port.toNat % 4 := by omega
    rw [if_pos hle, Nat.min_eq_left hle]
    congr 3
    exact BitVec.eq_of_toNat_eq (by rw [hmask n hn, Nat.mod_eq_of_lt hv])
  · next h =>
    have hlt : 4 - port.toNat % 4 < n := by omega
    rw [if_neg (by omega), Nat.min_eq_right (Nat.le_of_lt hlt)]
    generalize 4 - port.toNat % 4 = k at hlt
    have hlow : v &&& BitVec.ofNat 32 (2 ^ (8 * k) - 1) = BitVec.ofNat 32 (v.toNat % 2 ^ (8 * k)) :=
      BitVec.eq_of_toNat_eq (by rw [hmask k (by omega), BitVec.toNat_ofNat, hfit _ (Nat.mod_le ..)])
    have hhigh : v >>> (8 * k) = BitVec.ofNat 32 (v.toNat / 2 ^ (8 * k)) :=
      BitVec.eq_of_toNat_eq (by rw [BitVec.toNat_ushiftRight, Nat.shiftRight_eq_div_pow, BitVec.toNat_ofNat, hfit _ (Nat.div_le_self ..)])
    rw [hlow, hhigh]

/-! ### The instructions -/

/-- What IN and OUT do before their access: the permission check, then the range (R486, U11). -/
def guardedIo (port : Half) (n : Nat) (m : M Unit) : M Unit := do
  ioCheck port n
  ioRange port n
  m

theorem guardedIo_denied {port : Half} {n : Nat} {s : State} (m : M Unit) (hf : s.flat = true) (h : ¬ s.mayIo port n) :
    ∃ t, Quiet s t ∧ guardedIo port n m s = .error (.exc (Exc.fault vGP (some 0))) t := by
  obtain ⟨t, hq, ⟨hmay, -⟩ | ⟨-, e⟩⟩ := ioCheck_flat port n hf
  · exact absurd hmay h
  · exact ⟨t, hq, M.bind_error e⟩

theorem guardedIo_allowed {port : Half} {n : Nat} {s : State} (m : M Unit) (hf : s.flat = true) (h : s.mayIo port n) :
    ∃ t, Quiet s t ∧ guardedIo port n m s = (ioRange port n >>= fun _ => m) t := by
  obtain ⟨t, hq, ⟨-, e⟩ | ⟨hdeny, -⟩⟩ := ioCheck_flat port n hf
  · exact ⟨t, hq, M.bind_ok e⟩
  · exact absurd h hdeny

theorem ioRange_inside {port : Half} {n : Nat} (h : port.toNat + n ≤ 65536) (s : State) : ioRange port n s = .ok () s := by
  rw [ioRange, if_pos h]
  rfl

theorem ioRange_past {port : Half} {n : Nat} (h : 65536 < port.toNat + n) (s : State) :
    ioRange port n s = .error (.refused .ioPastEnd) s := by
  rw [ioRange, if_neg (by omega)]
  rfl

/-- The access of IN. -/
def inAccess (sz : Size) (port : Half) : M Unit := do
  let s ← get
  let v ← drawBits sz.bits
  update fun t => (ioDone port true s (ioReads port sz.bytes (v.setWidth 32) s.untranslated) t).putView sz .eax v
  noteIo port sz.bytes

/-- The access of OUT. -/
def outAccess (sz : Size) (port : Half) : M Unit := do
  let s ← get
  update fun t =>
    ioDone port false s (ioWrites port sz.bytes ((s.view sz .eax).setWidth 32) s.untranslated) (serialize t)
  noteIo port sz.bytes

theorem inOp_eq (sz : Size) (port : Half) : inOp sz port = guardedIo port sz.bytes (inAccess sz port) := rfl

theorem outOp_eq (sz : Size) (port : Half) : outOp sz port = guardedIo port sz.bytes (outAccess sz port) := rfl

theorem run_inDx (sz : Size) (s : State) : run (inDx sz) s = run (inOp sz (s.port .dx)) s := by
  unfold run inDx
  rw [M.get_bind]
  rfl

theorem run_outDx (sz : Size) (s : State) : run (outDx sz) s = run (outOp sz (s.port .dx)) s := by
  unfold run outDx
  rw [M.get_bind]
  rfl

theorem exec_in {i : Instr} {sz : Size} {q : Port} (hi : IsIn i (sz, q)) (s : State) :
    exec i s = run (guardedIo (s.port q) sz.bytes (inAccess sz (s.port q))) s := by
  rw [← inOp_eq]
  cases hi with
  | inAlIb | inEaxIb => rfl
  | inAlDx | inEaxDx => exact run_inDx _ s

theorem exec_out {i : Instr} {sz : Size} {q : Port} (hi : IsOut i (sz, q)) (s : State) :
    exec i s = run (guardedIo (s.port q) sz.bytes (outAccess sz (s.port q))) s := by
  rw [← outOp_eq]
  cases hi with
  | outIbAl | outIbEax => rfl
  | outDxAl | outDxEax => exact run_outDx _ s

/-- The access is remembered for an SMI# at its boundary, and its cycles are on the bus (R714). -/
theorem ioDone_eq (port : Half) (input : Bool) (b : State) (es : List BusEvent) (s : State) : ∃ c,
    ioDone port input b es s = { s with
      smm := { s.smm with lastIo := some {
        port := port, input := input, eip := s.scr.start, esi := b.gpr.esi, ecx := b.gpr.ecx, edi := b.gpr.edi } }
      bus := es.reverse ++ s.bus, cache := c } :=
  driveAll_eq es (s.setSmm { s.smm with lastIo := _ })

theorem untranslated_flat {s : State} (hf : s.flat = true) : s.untranslated = (s.cd, false) := by
  rw [State.untranslated, State.flat_pg hf]
  rfl

/-- The parts of an access of an operand size. -/
theorem ioParts_size (sz : Size) (port : Half) (v : BitVec sz.bits) :
    ioParts port sz.bytes (v.setWidth 32) = portParts port sz.bytes (v.setWidth 32) := by
  have hbits : sz.bits = 8 * sz.bytes := by cases sz <;> rfl
  have hbytes : sz.bytes ≤ 4 := by cases sz <;> decide
  refine ioParts_eq_portParts hbytes ?_
  rw [BitVec.toNat_setWidth, ← hbits]
  exact Nat.lt_of_le_of_lt (Nat.mod_le ..) v.isLt

/-- The cycles of IN, the lower part first (R485). -/
theorem ioReads_flat (sz : Size) (port : Half) (v : BitVec sz.bits) {s : State} (hf : s.flat = true) :
    ioReads port sz.bytes (v.setWidth 32) s.untranslated =
      (portParts port sz.bytes (v.setWidth 32)).map fun x => .ioRead x.1 x.2.1 x.2.2 s.cd false := by
  rw [ioReads, ioParts_size, untranslated_flat hf]

/-- The cycles of OUT, the lower part last (R487). -/
theorem ioWrites_flat (sz : Size) (port : Half) (v : BitVec sz.bits) {s : State} (hf : s.flat = true) :
    (ioWrites port sz.bytes (v.setWidth 32) s.untranslated).reverse =
      (portParts port sz.bytes (v.setWidth 32)).map fun x => .ioWrite x.1 x.2.1 x.2.2 s.cd false := by
  rw [ioWrites, ioParts_size, untranslated_flat hf, List.map_reverse, List.reverse_reverse]

/-- IN reads a value from outside into the accumulator (R485). -/
theorem inAccess_flat (sz : Size) (port : Half) {s : State} (hf : s.flat = true) : ∃ v c d,
    inAccess sz port s = .ok () { s with
      gpr := s.gpr.putView sz .eax v
      smm := { s.smm with lastIo := some {
        port := port, input := true, eip := s.scr.start, esi := s.gpr.esi, ecx := s.gpr.ecx, edi := s.gpr.edi } }
      bus := ((portParts port sz.bytes (v.setWidth 32)).map fun x => .ioRead x.1 x.2.1 x.2.2 s.cd false).reverse ++ s.bus
      cache := c, draws := d } := by
  obtain ⟨c, e⟩ := ioDone_eq port true s
    (ioReads port sz.bytes ((Config.freeBits sz.bits s.draws).setWidth 32) s.untranslated) (s.setDraws (s.draws + 1))
  refine ⟨Config.freeBits sz.bits s.draws, c, s.draws + 1, ?_⟩
  have hdr := State.flat_dr7 hf
  unfold inAccess
  rw [M.get_bind, drawBits_bind, update_bind, e, ioReads_flat sz port _ hf]
  refine (noteIo_flat port sz.bytes ?_).trans rfl
  exact hdr

/-- OUT writes the accumulator (R487). -/
theorem outAccess_flat (sz : Size) (port : Half) {s : State} (hf : s.flat = true) : ∃ c,
    outAccess sz port s = .ok () { s with
      smm := { s.smm with lastIo := some {
        port := port, input := false, eip := s.scr.start, esi := s.gpr.esi, ecx := s.gpr.ecx, edi := s.gpr.edi } }
      bus := ((portParts port sz.bytes ((s.view sz .eax).setWidth 32)).map
        fun x => .ioWrite x.1 x.2.1 x.2.2 s.cd false) ++ s.bus
      cache := c } := by
  obtain ⟨c, e⟩ := ioDone_eq port false s (ioWrites port sz.bytes ((s.view sz .eax).setWidth 32) s.untranslated) (serialize s)
  refine ⟨c, ?_⟩
  have hdr := State.flat_dr7 hf
  unfold outAccess
  rw [M.get_bind, update_bind, e, ioWrites_flat sz port _ hf]
  refine (noteIo_flat port sz.bytes ?_).trans rfl
  exact hdr

end Sys2Proof.Machine

open Sys2Proof Sys2Proof.Machine

/-- Settles O38: the check, the range, and then one access. -/
theorem portResult : Obligations.PortResult := by
  unfold Obligations.PortResult
  intro i sz q s hi hf
  obtain ⟨m, hm⟩ : ∃ m, exec i s = run (guardedIo (s.port q) sz.bytes m) s :=
    hi.elim (fun h => ⟨_, exec_in h s⟩) fun h => ⟨_, exec_out h s⟩
  refine ⟨fun hdeny => ?_, fun hmay hpast => ?_, fun hmay hrange => ⟨fun hin => ?_, fun hout => ?_⟩⟩
  · obtain ⟨t, hq, e⟩ := guardedIo_denied (s := s.advance) m hf hdeny
    exact ⟨t, hm.trans (run_exc e), hq.mem⟩
  · obtain ⟨t, -, e⟩ := guardedIo_allowed (s := s.advance) m hf hmay
    exact hm.trans (run_refused (e.trans (M.bind_error (ioRange_past hpast t))))
  · obtain ⟨t, hq, e⟩ := guardedIo_allowed (s := s.advance) (inAccess sz (s.port q)) hf hmay
    obtain ⟨v, c, d, ev⟩ := inAccess_flat sz (s.port q) (hq.flat hf)
    have erun := (exec_in hin s).trans (run_ok (e.trans ((M.bind_ok (ioRange_inside hrange t)).trans ev)))
    obtain ⟨c₀, d₀, rfl, -⟩ := hq
    exact ⟨_, v, erun, rfl⟩
  · obtain ⟨t, hq, e⟩ := guardedIo_allowed (s := s.advance) (outAccess sz (s.port q)) hf hmay
    obtain ⟨c, ev⟩ := outAccess_flat sz (s.port q) (hq.flat hf)
    have erun := (exec_out hout s).trans (run_ok (e.trans ((M.bind_ok (ioRange_inside hrange t)).trans ev)))
    obtain ⟨c₀, d₀, rfl, -⟩ := hq
    exact ⟨_, erun, rfl⟩

end
